-- ==== Sys2Proof/Word.lean ====
section
/-! DEFINITION. The machine's bit widths, the sparse table every register file and memory of the model is held in,
and the plainest bit arithmetic (R4, R11, R21, R120). -/
namespace Sys2Proof

/-- A device word (R4). -/
abbrev Word := BitVec 16
/-- A long: two words, low word first (R21). -/
abbrev Long := BitVec 32
/-- An octet of host memory, of a frame or of a word's half (R4). -/
abbrev Byte := BitVec 8
/-- A virtual word address or an address register (R116). -/
abbrev Addr := BitVec 48
/-- A rod (R21). -/
abbrev Rod := BitVec 80

/-- A sparse table in one canonical form: keys strictly rising, no entry equal to the value an unlisted key has. -/
abbrev Tbl (α : Type) := List (Nat × α)

/-- Device time and ledger totals: a count with no width of its own here; its width is applied where it is read. -/
abbrev Count := Nat

/-- `sat`n (R11): x limited to the signed range of n bits. -/
def satInt (n : Nat) (x : Int) : Int :=
  if x < -(2 ^ (n - 1) : Int) then -(2 ^ (n - 1) : Int)
  else if x > (2 ^ (n - 1) : Int) - 1 then (2 ^ (n - 1) : Int) - 1 else x

/-- `usat`n (R11): x limited to the unsigned range of n bits. -/
def usatInt (n : Nat) (x : Int) : Int :=
  if x < 0 then 0 else if x > (2 ^ n : Int) - 1 then (2 ^ n : Int) - 1 else x

end Sys2Proof
end

