-- ==== Sys2Proof/Machine/Units.lean ====
section
/-! DEFINITION. The records the units outside the engines hold: instances and their ledgers, programs, coaches,
best-effort jobs, streams and their keys, departure entries, flash and journal, twin and power state. Plain data;
every default is the value after reset. -/
namespace Sys2Proof.Machine

/-! ### Instances (R291 to R300, R346 to R356) -/

/-- The states of an instance (R291), in code order. -/
inductive InstState where
  | free | active | quiescing | quiesced | error
  deriving DecidableEq, Repr

/-- The statuses of a completion (R297), in code order. -/
inductive Status where
  | ok | pending | refusedCapacity | stateConflict | notPermitted | badArgument | instanceError
  deriving DecidableEq, Repr

/-- What the completion of an accepted command waits for (R303, R305). -/
inductive Wait where
  | quiesce (n : Nat)
  | pasid (loads : List Nat)
  | drain (f : Nat)
  | rekey
  | close (stream : Nat)
  | boardRelease (b : Nat)
  | job (id : Nat)
  | erase
  | activation (kind index : Nat)
  | snapshot (buf : Nat)
  | powerFull
  | powerPark
  | handover
  | resync
  | journal
  deriving DecidableEq, Repr

/-- The command in execution on a ring: its completion waits for an event (R295, R301). -/
structure Busy where
  op : Nat
  tag : Word
  result : Nat
  wait : Wait
  deriving DecidableEq, Repr

/-- A completion to be written (R297): status, tag, opcode, detail, result; `told`: the twin has its entry already (R371). -/
structure Cpl where
  status : Status
  tag : Word
  op : Nat
  detail : Nat
  result : Nat
  told : Bool := false
  deriving DecidableEq, Repr

/-- A notice held for room in the completion ring (R298). -/
structure Notice where
  code : Nat
  detail : Nat
  result : Nat
  deriving DecidableEq, Repr

/-- The four guaranteed shares of an instance (R273). -/
structure Shares where
  steps : Nat := 0
  dram : Nat := 0
  streams : Nat := 0
  boards : Nat := 0
  deriving DecidableEq, Repr

/-- A pending reduction of one share (R275): which share, the new value, the TAG of its command, and whether a round has begun
since, from which on it rules new requests. -/
structure PendShare where
  share : Nat
  value : Nat
  tag : Word
  rules : Bool := false
  deriving DecidableEq, Repr

/-- A running dirty log (R315): bitmap base, range base, page count, pages logged in the active bitmap. -/
structure DirtyLog where
  bitmap : Nat
  base : Nat
  pages : Nat
  logged : List Nat := []
  deriving DecidableEq, Repr

/-- An instance's ledger (R346): totals of the closed minutes (counter i at key i, reason j at key 32 + j), increments of the
minutes not yet closed (key minute × 64 + that key), and the chain (R352, R355). -/
structure Ledger where
  tot : Tbl Nat := []
  inc : Tbl Nat := []
  seq : Nat := 0
  prev : List Word := []
  nextKind : Nat := 0
  held : List (List Word) := []
  gap : Bool := false
  lost : Bool := false
  deriving DecidableEq, Repr

/-- A virtual finish time (R277), an exact quotient. -/
structure Tag where
  num : Nat := 0
  den : Nat := 1
  deriving DecidableEq, Repr

/-- One instance. Buckets hold 1,024ths of a unit (R277); `late`: a command of its ring was in execution when it left ACTIVE (R301,
R309); `cplFirst`: the completion held goes before any notice, because the ring was disabled under its command (R295, R298). -/
structure Inst where
  st : InstState := .free
  cause : Nat := 0
  pasid : Nat := 0
  vector : Nat := 0
  shares : Shares := {}
  pendShares : List PendShare := []
  weight : Nat := 0
  limits : List Nat := [0, 0, 0]
  nextWeight : Option Nat := none
  nextLimits : List (Option Nat) := [none, none, none]
  nextShares : List (Option Nat) := [none, none, none, none]
  buckets : List Int := [0, 0, 0]
  finish : Tag := {}
  busy : Option Busy := none
  behind : List (Cpl × Option Wait) := []
  heldCpl : Option Cpl := none
  cplFirst : Bool := false
  late : Bool := false
  notices : Tbl Notice := []
  log : Option DirtyLog := none
  ledger : Ledger := {}
  deriving DecidableEq, Repr

/-- A registered program (R259, R305). -/
structure Prog where
  base : Nat := 0
  words : Nat := 0
  entry : Nat := 0
  perChannel : Nat := 0
  fixed : Nat := 0
  staged : Nat := 0
  blocks : Nat := 0
  size : Nat := 0
  beState : Nat := 0
  beBase : Nat := 0
  args : List Word := []
  valid : Bool := false
  deriving DecidableEq, Repr

/-! ### The Innkeeper (R252 to R283) -/

/-- A channel of a coach: its stream and leg (R12: each leg of a RELAY stream is a channel), its first period in this coach and its
last one, its place in the coach's state area, and the board words it brings (R305). -/
structure Member where
  stream : Nat
  first : Nat
  last : Option Nat := none
  leg : Bool := false
  slot : Nat := 0
  boards : List Word := []
  deriving DecidableEq, Repr

/-- How a period's job of a coach ended, as the digest carries it (R381): charge, fallback, marks H W E D. -/
structure JobEnd where
  period : Nat := 0
  charge : Nat := 0
  fallback : Bool := false
  host : Bool := false
  watchdog : Bool := false
  err : Bool := false
  dbg : Bool := false
  deriving DecidableEq, Repr

/-- A coach (R258): `period` is the period code of R70, `rel` the release offset in µs; a coming merge names the other coach, with
the period at whose boundary it takes place (R260); `stagedAt` is where its state stands in a local store while a job of it has
it there (R263), `fbList` the list its fallback of a period emits (R281), `chain` how many descriptors each of its courier chains has (R208). -/
structure Coach where
  inst : Nat := 0
  prog : Nat := 0
  period : Nat := 0
  rel : Nat := 0
  members : List Member := []
  reck : Nat := 0
  first : Nat := 0
  moveTo : Option (Nat × Nat) := none
  firstHere : Bool := true
  overran : Bool := false
  issued : Option Nat := none
  running : Option Nat := none
  ended : JobEnd := {}
  fellBack : Option Nat := none
  pad : Option Nat := none
  lastIssued : Option Nat := none
  listed : Option Nat := none
  withdrawn : Option Nat := none
  stateBase : Nat := 0
  zeros : List Nat := []
  unprotected : Bool := false
  holdDigest : Bool := false
  compareFrom : Nat := 0
  incoming : Option (Nat × List Word) := none
  sendState : Bool := false
  resume : Option Nat := none
  lateCut : Option Nat := none
  mergeInto : Option (Nat × Nat) := none
  takes : Option Nat := none
  stagedAt : Option Nat := none
  fbList : Option (Nat × List (List Word)) := none
  chain : Nat := 1
  libs : Tbl Word := []
  valid : Bool := false
  deriving DecidableEq, Repr

/-- A best-effort job (R277): waiting, or issued to a reckoner in a round, its state staged at a place; ended by an overrun, by a
fault. -/
structure BeJob where
  id : Nat
  inst : Nat
  prog : Nat
  budget : Nat
  tag : Word
  finish : Tag
  issued : Option (Nat × Nat) := none
  stagedAt : Option Nat := none
  libs : Tbl Word := []
  ovr : Bool := false
  fault : Bool := false
  deriving DecidableEq, Repr

/-! ### The Gatehouse (R219 to R251) -/

/-- A classification key (R227): kind, port group, VLAN, IPv6, addresses and ports. -/
structure ClassKey where
  full : Bool
  group : Nat
  vid : Nat
  v6 : Bool
  dst : Nat
  dport : Nat
  src : Nat := 0
  sport : Nat := 0
  deriving DecidableEq, Repr

/-- A key slot (R227, R228): its key, the stream entry and leg it reports. -/
structure KeySlot where
  key : ClassKey
  stream : Nat
  leg : Bool
  absent : Bool := false
  deriving DecidableEq, Repr

/-- A stream entry (R232), with what the Innkeeper keeps beside it: its coach, its release offset with stagger in device
units (R262), its board words, its staged words and its fallback code (R280). -/
structure Stream where
  valid : Bool := false
  form : Nat := 0
  srtp : Bool := false
  ssrcChk : Bool := false
  owner : Nat := 0
  period : Nat := 0
  ringLog2 : Nat := 0
  slotUnits : Nat := 0
  slotTs : Nat := 0
  tsAnchor : Long := 0#32
  periodAnchor : Long := 0#32
  ringBase : Nat := 0
  ssrcA : Long := 0#32
  ssrcB : Long := 0#32
  ctxA : Nat := 0
  ctxB : Nat := 0
  target : Nat := 0
  pktLimit : Nat := 0
  template : Nat := 0
  egressPort : Nat := 0
  templateWords : Nat := 0
  tmpl : List Word := []
  rel : Nat := 0
  stagger : Nat := 0
  coach : Option Nat := none
  boards : List Word := []
  fallback : Nat := 0
  nextFallback : Option (Nat × Nat) := none
  closing : Option Nat := none
  nextAnchor : Option (Long × Long) := none
  deriving DecidableEq, Repr

/-- Frames policed for a leg in a period (R233): the period and the count. -/
structure Police where
  period : Nat := 0
  count : Nat := 0
  deriving DecidableEq, Repr

/-- A key slot of an SRTP context (R235): master key and salt, MKI, FROM_INDEX, packets used. -/
structure SrtpKey where
  key : List Byte
  salt : List Byte
  mki : List Byte
  fromIndex : Nat
  usedRtp : Nat := 0
  usedRtcp : Nat := 0
  deriving DecidableEq, Repr

/-- One direction of an SRTP context (R235). -/
structure SrtpDir where
  roc : Nat := 0
  highest : Nat := 0
  seen : Bool := false
  window : List Nat := []
  rtcpIndex : Nat := 0
  rtcpWindow : List Nat := []
  current : Option SrtpKey := none
  next : Option SrtpKey := none
  deriving DecidableEq, Repr

/-- An SRTP context (R235). -/
structure Srtp where
  used : Bool := false
  owner : Nat := 0
  suite : Option Nat := none
  mkiLen : Nat := 0
  rx : SrtpDir := {}
  tx : SrtpDir := {}
  deriving DecidableEq, Repr

/-- A datagram under reassembly (R226): its identity, when its first fragment came, its fragments by offset. -/
structure Reasm where
  src : Nat
  dst : Nat
  ident : Nat
  v6 : Bool
  start : Nat
  first : Bool
  ctl : Bool
  last : Option Nat
  frags : List (Nat × List Byte)
  head : List Byte
  port : Nat
  vid : Nat
  tagged : Bool
  octets : Nat := 0
  deriving DecidableEq, Repr

/-- A control port of the image (R224). -/
structure CtlPort where
  port : Nat
  addr : Option Nat
  inst : Nat
  deriving DecidableEq, Repr

/-- An entry on the departure board (R246, R247): its RELEASE in force (0: as soon as the port allows), the instant its counts
belong to (R347), where its payload lies in memory or the octets copied for it, whether its index entry is lost (R457). -/
structure Dep where
  kind : Nat
  mark : Bool
  leg : Bool
  release : Nat
  at_ : Nat
  stream : Nat
  payload : Option Nat
  data : List Byte
  len : Nat
  seq : Word
  ts : Long
  inst : Nat
  port : Nat
  order : Nat
  lost : Bool := false
  late : Bool := false
  deriving DecidableEq, Repr

/-- A frame whose RELEASE has come and that waits for its port (R248). -/
structure Ready where
  release : Nat
  port : Nat
  stream : Nat
  order : Nat
  admitted : Bool
  frame : List Byte
  deriving DecidableEq, Repr

/-- A frame kept after a SHADOW discard (R389): its RELEASE, its port, its octets. -/
structure Kept where
  release : Nat
  port : Nat
  stream : Nat
  frame : List Byte
  deriving DecidableEq, Repr

/-- A frame in the standby buffer (R379): with its octets before the UDP payload, its VLAN and its length (R299, R347). -/
structure Standby where
  stamp : Nat
  port : Nat
  stream : Nat
  leg : Bool
  ssrc : Long
  seq : Word
  data : List Byte
  vid : Option Nat
  head : List Byte
  octets : Nat
  deriving DecidableEq, Repr

/-! ### The Counting Board (R69 to R81) -/

/-- A board's descriptor (R70), with the frame it was homed on and the last generation of it there, and the frame it is
to be homed on from a coming generation (R271). -/
structure BoardDesc where
  valid : Bool := false
  owner : Nat := 0
  period : Nat := 0
  home : Nat := 0
  len1 : Nat := 0
  base : Nat := 0
  expect : Word := 0#16
  expectNext : Word := 0#16
  switchGen : Long := 0#32
  firstGen : Long := 0#32
  old : Option (Nat × Nat) := none
  plan : Option (Nat × Nat) := none
  deriving DecidableEq, Repr

/-- One block of one bank of a board (R72): tag, count, poison mark and 16 totals; `lost`: an uncorrectable error struck its totals
(R73, R381). -/
structure BoardBlock where
  tag : Long := 0#32
  count : Nat := 0
  poison : Bool := false
  lost : Bool := false
  tot : Tbl (BitVec 48) := []
  deriving DecidableEq, Repr

/-! ### The twin link (R366 to R394) -/

/-- What HELLO says of its sender (R371). -/
structure Hello where
  serial : Nat
  isaMajor : Nat
  isaMinor : Nat
  silicon : Nat
  strap : Bool
  role : Nat
  eligible : Bool
  digest : List Word
  coaches : Nat
  deriving DecidableEq, Repr

/-- A decision of origin SELF with its effect boundary (R254, R371): a coach moves to a reckoner from its period g, coaches merge,
a best-effort job is issued, a frame drains for recalibration, a board is rehomed from generation g, a re-key begins or
makes its table active, a difference
of digests is resolved in a class of R382. -/
inductive Decision where
  | move (c r g : Nat)
  | merge (a b g : Nat)
  | beIssue (id r round : Nat)
  | recal (f : Nat) (words : Word × Word)
  | rehome (b f g : Nat)
  | rekey (n : Nat) (asked : Bool)
  | rekeyed
  | resolve (c g cls : Nat)
  deriving DecidableEq, Repr

/-- The numbers a DECISION carries. -/
def Decision.body : Decision → List Nat
  | .move c r g => [1, c, r, g]
  | .merge a b g => [2, a, b, g]
  | .beIssue id r n => [3, id, r, n]
  | .recal f w => [4, f, w.1.toNat, w.2.toNat]
  | .rehome b f g => [5, b, f, g]
  | .rekey n m => [6, n, if m then 1 else 0]
  | .rekeyed => [8]
  | .resolve c g k => [7, c, g, k]

/-- A chunk of STATE (R394): one object of the primary with its place. -/
inductive StateObj where
  | inst (n : Nat) (x : Inst) (head tail : Word)
  | prog (k : Nat) (x : Prog)
  | stream (i : Nat) (x : Stream)
  | ctx (i : Nat) (x : Srtp)
  | key (p : Nat) (x : KeySlot)
  | stash (l : List KeySlot)
  | hashes (a b : Nat) (second rekeying : Bool)
  | board (b : Nat) (d : BoardDesc)
  | block (k : Nat) (x : BoardBlock)
  | coach (c : Nat) (k : Coach)
  | police (k : Nat) (p : Police)
  | memory (pa : Nat) (ws : List Word)
  | journal (tail : List (List Word))
  deriving DecidableEq, Repr

/-- What a secondary adopts of its primary's ledger (R385): totals, chain and next sequence number. -/
structure Adopt where
  tot : Tbl Nat
  prev : List Word
  seq : Nat
  deriving DecidableEq, Repr

/-- What LEDGER says of a twin's closed record (R371, R385): SEQ and DIGEST, with the totals it closed. -/
structure LedgerMsg where
  seq : Nat
  digest : List Word
  tot : Tbl Nat
  deriving DecidableEq, Repr

/-- How far the resync of the twin has come on the device that serves it (R394). -/
inductive Resync where
  | idle | sending | sent
  deriving DecidableEq, Repr

/-- A digest on the link (R371, R381): coach, period, digest, fault marks. -/
structure Digest where
  coach : Nat
  period : Nat
  words : List Word
  host : Bool := false
  watchdog : Bool := false
  err : Bool := false
  dbg : Bool := false
  late : Bool := false
  due : Nat := 0
  sent : Bool := false
  deriving DecidableEq, Repr

/-! ### Power (R395 to R421) -/

/-- What the Night Porter's wake controller is doing (R414). -/
inductive WakeSt where
  | awake
  | night
  | off
  | stage (n : Nat)
  | retry (since : Nat)
  deriving DecidableEq, Repr

/-- The twin as last heard of (R371, R378): its role, SYNC, eligibility, frames, time and MSEQ of its last BEAT; when its last message
came, and its last heartbeat edge. -/
structure Peer where
  role : Nat := 0
  sync : Bool := false
  eligible : Bool := false
  frames : Nat := 0
  known : Bool := false
  beat : Nat := 0
  lastMsg : Nat := 0
  lastHb : Nat := 0
  hbSeen : Bool := false
  mseq : Nat := 0
  deriving DecidableEq, Repr

/-! ### Configuration (R422 to R440) -/

/-- One directory entry of an image with its piece's place (R425). -/
structure Piece where
  kind : Nat
  index : Nat
  pver : Word
  serial : Nat
  digest : List Word
  octets : List Byte
  deriving DecidableEq, Repr

/-- A piece in service (R428): its version, digest and content, the slot it came from, and the numbers of its first settings as
parsed when it was loaded (R429). -/
structure Active where
  pver : Word
  digest : List Word
  octets : List Byte
  slot : Nat
  fields : List Nat := []
  deriving DecidableEq, Repr

/-- A pending activation (R437): its piece, its instant's grid index, and whether it has taken effect. -/
structure PendAct where
  piece : Piece
  instant : Nat
  taken : Bool := false
  deriving DecidableEq, Repr

end Sys2Proof.Machine
end

