-- ==== Sys2Proof/Syntax.lean ====
section
/-! DEFINITION. The commands of the device: the instructions its engines execute, the events its units take part in,
the commands its instances and manager give, the register accesses and the debug and board requests: one constructor
per row of the opcode table, with the operands the row's rule gives it. -/
namespace Sys2Proof

/-- An engine: 0 to 191 the reckoners (R82), 192 + p the steward pair p, which acts as one engine (R454). -/
abbrev EngId := Fin 196

/-- Who caused a change (R441), in code order. -/
inductive Origin where
  | boot | image | manager | instance_ (n : Nat) | self | twin | debugPort
  deriving DecidableEq, Repr

/-- The code of an origin (R441). -/
def Origin.code : Origin → Nat
  | .boot => 0
  | .image => 1
  | .manager => 2
  | .instance_ _ => 3
  | .self => 4
  | .twin => 5
  | .debugPort => 6

/-- The instance an origin names. -/
def Origin.inst : Origin → Nat
  | .instance_ n => n
  | _ => 0

/-- Who makes an access to a register: it has its own group shadows and held words (R290). A steward's access
of an act it carries out is that pair's with the act's origin (R441, R482). -/
inductive Agent where
  | eng (n : Nat)
  | act (pair : Fin 4) (origin : Origin)
  | host
  | debug
  deriving DecidableEq, Repr

/-- A command entry at the head of an instance's command ring (R296): the ring, bits 15:8 of word 0, TAG, word 2 and words 3 to
31; the command's own row gives its opcode. -/
structure Entry where
  ring : Fin 512
  hi : Byte := 0#8
  tag : Word := 0#16
  w2 : Word := 0#16
  args : List Word := []
  deriving DecidableEq, Repr

/-- The entry of PIECE_STAGE BEGIN, and whether the twin's outcome of it is the same (R436). -/
structure StageBegin where
  entry : Entry
  same : Bool := true
  deriving DecidableEq, Repr

/-- The ready signal of a wake stage (R414): the stage, what analogue comparator 0 reads on the core supply in mV, and whether DRAM has
kept its supplies (R494). (DESIGN CHOICE, log 211) -/
structure WakeReady where
  stage : Fin 4
  core : Nat := 0
  dramHeld : Bool := true
  deriving DecidableEq, Repr

/-- What a frame's power-up finds (R397, R407): its reckoners pass the memory self-test; the step rate its calibration measures, in M
steps/s. -/
structure PowerUp where
  selfTest : Bool := true
  pace : Nat := 0
  deriving DecidableEq, Repr

/-- A Read Word on the SMBus (R503): the 7-bit address it names, its command code, whether it asks for PEC, and what temperature sensor 3
reads then, in quarter degrees. -/
structure SmbusRead where
  address : BitVec 7 := 0x4C#7
  code : Byte
  pec : Bool := false
  sensor3 : Int := 0
  deriving DecidableEq, Repr

/-- What a start-up stage meets outside the device (R431): whether the flash answers as R422 asks, which steward compare
points and whether the digest comparator stay silent in self-test (R455), and MC_CH_INFO of each channel as trained. -/
structure StartIn where
  flashOk : Bool := true
  silent : Word := 0#16
  digestSilent : Bool := false
  channels : List Word := []
  deriving DecidableEq, Repr

/-- What the Gatehouse's tables hold that an error can take (R457): a key slot of the tables by its place or of the stash, an entry of
the departure index by its arrival, a stream's header template. -/
inductive GhItem where
  | key (p : Nat)
  | stash (i : Nat)
  | departure (n : Nat)
  | template (stream : Nat)
  deriving DecidableEq, Repr

/-- What a COMMIT tells of its command (R371): carried out; refused; or, where the completion had to wait, its completion entry, by
itself. -/
inductive CommitPart where
  | carriedOut | refused | completion
  deriving DecidableEq, Repr

/-- A COMMIT of the mirror stream (R371): its MSEQ, the command (R296) with its opcode, when the primary committed it, when it takes
effect if that is later, where it placed a coach, its answer, its ring's indices and completion entry, and what carrying it out
reads: the blocks the primary read, or the octets this device reads itself (R436); `same`: both devices' outcomes agree (R436). -/
structure Commit where
  mseq : Nat
  part : CommitPart := .carriedOut
  entry : Entry
  op : Byte
  time : Nat
  effect : Option Nat := none
  placed : Option (Nat × Nat) := none
  status : Machine.Status := .ok
  detail : Nat := 0
  result : Nat := 0
  head : Word := 0#16
  tail : Word := 0#16
  cpl : Option (List Word) := none
  blocks : List (List Word) := []
  octets : List Byte := []
  same : Bool := true
  deriving DecidableEq, Repr

/-- What the host answers a read of its memory: the data, translation refused, a poisoned completion, or none within the completion
timeout (R293, R318). -/
inductive HostRead (α : Type) where
  | data (x : α) | refused | poisoned | timedOut
  deriving DecidableEq, Repr

/-- What is delivered to an input queue (R113): its data words, and the device time at which the packet arrived, which counts for a
delivery of the Gatehouse alone. -/
structure Delivery where
  words : List Word
  arrival : Nat := 0
  deriving DecidableEq, Repr

/-- How a host-window load ends (R217, R314): with the host's words; with the translation of an awaited word refused, or its completion
poisoned, the lowest such word by its number among those awaited; or with no completion. -/
inductive LoadEnd where
  | data (words : List Word) | refused (k : Nat) | poisoned (k : Nat) | timedOut
  deriving DecidableEq, Repr

/-- What a job leaves for the Gatehouse (R232, R246): its departure list, none where a fallback's list stands for it, and the streams
whose anchors it moves, with the new TS_ANCHOR and PERIOD_ANCHOR. -/
structure DepList where
  entries : Option (List (List Word))
  anchors : List (Nat × Long × Long)
  deriving DecidableEq, Repr

/-- Edges of the internal reference since the TCXO was lost, or the last such command, with the level of PPS_IN at them (R327, R341). -/
structure RefEdges where
  count : Nat
  pps : Bool
  deriving DecidableEq, Repr

/-- A read request: its byte address in the register space and its length in octets (R289). -/
structure ReadReq where
  byte : Nat
  octets : Nat
  deriving DecidableEq, Repr

/-- What the check of a memory finds (R453, R457, R462); `both`: uncorrectable in both of the memory's two copies; `link`: link ECC has
corrected the transfer of a DRAM read. (DEDUCED, log 32) -/
inductive Finding where
  | clean | corrected | uncorrectable | both | link
  deriving DecidableEq, Repr

/-- Where the check of a memory finds it (R457): a word by its physical address, a block of a Counting Board bank, a physical word
in an engine's data cache, a line of its instruction cache, an engine's register file, store buffer or TLB, an instance's ledger, an entry of the
journal ring counted from the newest. (DEDUCED, log 32) -/
inductive Checked where
  | word (pa : Addr)
  | bank (board : Nat) (odd : Bool) (blk : Nat)
  | dcache (e : EngId) (pa : Nat)
  | icache (e : EngId) (line : Nat)
  | regs (e : EngId)
  | ledger (n : Fin 512)
  | journal (i : Nat)
  deriving DecidableEq, Repr

/-- The overflow suffix of an instruction (R24, R132): from MW.OVF, `.s`, `.w`. -/
inductive Sfx where
  | mw | s | w
  deriving DecidableEq, Repr

/-- Two words combined, short form (R130: the first is source and destination) or long form with its suffix. -/
inductive WSum where
  | s (d s : Fin 32)
  | l (d s t : Fin 32) (x : Sfx)
  deriving DecidableEq, Repr

/-- Two words combined by an operation with no suffix. -/
inductive WLog where
  | s (d s : Fin 32)
  | l (d s t : Fin 32)
  deriving DecidableEq, Repr

/-- The suffix of an immediate form (R153, R154): by MW.OVF, saturating, wrapping. -/
abbrev ISfx := Sfx

/-- The predicate of a long lane form (R56): none named, or p with the zeroing bit Z. -/
inductive LMask where
  | all
  | pred (p : Fin 4) (z : Bool)
  deriving DecidableEq, Repr

/-- Two lane registers combined, short or long form (R157, R158). -/
inductive VSum where
  | s (d b : Fin 16)
  | l (d a b : Fin 16) (m : LMask) (x : Sfx)
  deriving DecidableEq, Repr

/-- A lane accumulator updated from two lane registers, short or long form. -/
inductive VAcc where
  | s (u : Fin 4) (d b : Fin 16)
  | l (u : Fin 4) (a b : Fin 16) (m : LMask)
  deriving DecidableEq, Repr

/-- VMOV, short or long form. -/
inductive VMv where
  | s (d b : Fin 16)
  | l (d a : Fin 16) (m : LMask)
  deriving DecidableEq, Repr

/-- VCLR, short or long form. -/
inductive VClr where
  | s (u : Fin 4)
  | l (u : Fin 4) (m : LMask)
  deriving DecidableEq, Repr

/-- VRND, short form (shift 16, MW.RND) or long form with shift 0 to 47 and its rounding field (R157, R159). -/
inductive VRnd where
  | s (d : Fin 16) (u : Fin 4) (r : Fin 16)
  | l (d : Fin 16) (u : Fin 4) (sh : Fin 48) (r : Fin 16) (m : LMask) (x : Sfx) (rnd : BitVec 3)
  deriving DecidableEq, Repr

/-- LRND, short form (shift 16, l0 to l7) or long form (R155, R156). -/
inductive LRnd where
  | s (d : Fin 32) (l : Fin 8) (e : Fin 4)
  | l (d : Fin 32) (l : Fin 16) (sh : Fin 64) (e : Fin 4) (x : Sfx) (rnd : BitVec 3)
  deriving DecidableEq, Repr

/-- RNDW and RNDL: `D` is the destination's register file (32 words or 16 longs). -/
inductive KRnd (n : Nat) where
  | s (d : Fin n) (k : Fin 4)
  | l (d : Fin n) (k : Fin 4) (sh : Fin 64) (x : Sfx) (rnd : BitVec 3)
  deriving DecidableEq, Repr

/-- The source of KADD: a long or a rod (R155). -/
inductive KSrc where
  | l (n : Fin 16)
  | k (n : Fin 4)
  deriving DecidableEq, Repr

/-- The addressing modes of format LM (R134). A ring exponent of 0 is reserved and raises EMULATE. -/
inductive AMode where
  | ind
  | post
  | pre
  | disp (d : BitVec 13)
  | idx (m : Fin 32) (s : Fin 4)
  | mpost (d : BitVec 9)
  | ring (d : BitVec 9) (m : BitVec 4)
  deriving DecidableEq, Repr

/-- A memory operand of a word or a long: format SM ([an] or [an+]) or format LM. -/
inductive MemOp where
  | sm (a : Fin 16) (inc : Bool)
  | lm (a : Fin 16) (m : AMode)
  deriving DecidableEq, Repr

/-- A 32-bit displacement from an address register or from the instruction's own address (R134, R164). -/
inductive XBase where
  | reg (a : Fin 16) (d : Long)
  | pc (d : Long)
  deriving DecidableEq, Repr

/-- The count of RPT (R164). -/
inductive RptCount where
  | imm (n : Word)
  | reg (w : Fin 32)
  deriving DecidableEq, Repr

/-- A lane-flag or predicate register as VMFF names it (R158): 0 VV, 1 VSO, 2 VSAT, 4 to 7 p0 to p3. -/
inductive VFlagReg where
  | vv | vso | vsat
  | p (n : Fin 4)
  deriving DecidableEq, Repr

/-- A lane-flag register as VMTF names it. -/
inductive VFlag3 where
  | vv | vso | vsat
  deriving DecidableEq, Repr

/-- The commands, in the opcode table's order. -/
inductive Instr where
  /-- Moves a control register to a w or a register, with privilege by register number. (R152) -/
  | mfc (e : EngId) (d : Fin 32) (n : Fin 32)
  /-- Moves a w or a register to a control register; serialising, with PSR.MODE protected under R125. (R152) -/
  | mtc (e : EngId) (n : Fin 32) (d : Fin 32)
  /-- Copies one word register to another. (R152) -/
  | mov (e : EngId) (d s : Fin 32)
  /-- Loads a word register with a sign-extended 5-bit immediate. (R152) -/
  | movq (e : EngId) (d : Fin 32) (i : BitVec 5)
  /-- Loads a word register with a 16-bit immediate. (R152) -/
  | movi (e : EngId) (d : Fin 32) (i : Word)
  /-- Copies one long register to another. (R152) -/
  | lmov (e : EngId) (d s : Fin 16)
  /-- Loads a long register with a 32-bit immediate. (R152) -/
  | lmovi (e : EngId) (d : Fin 16) (i : Long)
  /-- Loads an address register with a sign-extended 32-bit immediate. (R152) -/
  | amovi (e : EngId) (d : Fin 16) (i : Long)
  /-- Sets bits 47:32 of an address register from a 16-bit immediate. (R152) -/
  | amovhi (e : EngId) (d : Fin 16) (i : Word)
  /-- Copies one address register to another. (R152) -/
  | amov (e : EngId) (d s : Fin 16)
  /-- Loads an address register with a zero-extended long. (R152) -/
  | amovl (e : EngId) (d : Fin 16) (s : Fin 16)
  /-- Loads a long with bits 31:0 of an address register. (R152) -/
  | lmova (e : EngId) (d : Fin 16) (s : Fin 16)
  /-- Reads the status word into a word register. (R152) -/
  | mfsw (e : EngId) (d : Fin 32)
  /-- Writes SW bits 5:0 from a word register; serialising. (R152) -/
  | mtsw (e : EngId) (s : Fin 32)
  /-- Reads the mode word into a word register. (R152) -/
  | mfmw (e : EngId) (d : Fin 32)
  /-- Writes MW bits 7:0; serialising; a reserved RND raises EMULATE. (R152) -/
  | mtmw (e : EngId) (s : Fin 32)
  /-- Adds two words, fitted by suffix or MW.OVF. (R153) -/
  | add (e : EngId) (f : WSum)
  /-- Subtracts two words, fitted by suffix or MW.OVF. (R153) -/
  | sub (e : EngId) (f : WSum)
  /-- Unsigned wrapping word add setting C. (R153) -/
  | addu (e : EngId) (d s t : Fin 32)
  /-- Unsigned wrapping word subtract setting C. (R153) -/
  | subu (e : EngId) (d s t : Fin 32)
  /-- Absolute value of a word with the quiet limit of R52. (R52) -/
  | abs (e : EngId) (d s : Fin 32) (x : Sfx)
  /-- Negation of a word with the quiet limit of R52. (R52) -/
  | neg (e : EngId) (d s : Fin 32) (x : Sfx)
  /-- Signed minimum of two words. (R153) -/
  | min (e : EngId) (d s t : Fin 32)
  /-- Signed maximum of two words. (R153) -/
  | max (e : EngId) (d s t : Fin 32)
  /-- Bitwise and of words. (R153) -/
  | and (e : EngId) (f : WLog)
  /-- Bitwise or of words. (R153) -/
  | or (e : EngId) (f : WLog)
  /-- Bitwise exclusive or of words. (R153) -/
  | xor (e : EngId) (f : WLog)
  /-- Bitwise complement of a word. (R153) -/
  | not (e : EngId) (d s : Fin 32)
  /-- Signed word compare setting C, V, Z and N without a result. (R28) -/
  | cmp (e : EngId) (short : Bool) (a b : Fin 32)
  /-- Unsigned word compare setting C, Z and N and clearing V. (R28) -/
  | cmpu (e : EngId) (a b : Fin 32)
  /-- Signed shift of a word by a 5-bit immediate count. (R47) -/
  | shlq (e : EngId) (d : Fin 32) (i : BitVec 5)
  /-- Signed left shift of a word by a signed count. (R47) -/
  | shl (e : EngId) (d s t : Fin 32) (x : Sfx)
  /-- Signed right shift of a word by a signed count. (R47) -/
  | shr (e : EngId) (d s t : Fin 32) (x : Sfx)
  /-- Rounding right shift of a word. (R48) -/
  | shrr (e : EngId) (d s t : Fin 32) (x : Sfx)
  /-- Logical left shift of a word, C from the last bit out. (R49) -/
  | lsl (e : EngId) (d s t : Fin 32)
  /-- Logical right shift of a word, C from the last bit out. (R49) -/
  | lsr (e : EngId) (d s t : Fin 32)
  /-- Normalisation count of a word. (R51) -/
  | norm (e : EngId) (d s : Fin 32)
  /-- Q15 product truncated to a word. (R37) -/
  | mulh (e : EngId) (d s t : Fin 32) (x : Sfx)
  /-- Q15 product rounded to a word. (R37) -/
  | mulr (e : EngId) (d s t : Fin 32) (x : Sfx)
  /-- Signed word product into a long. (R37) -/
  | mul (e : EngId) (d : Fin 16) (s t : Fin 32)
  /-- Unsigned word product into a long. (R37) -/
  | mulu (e : EngId) (d : Fin 16) (s t : Fin 32)
  /-- Fractional product 2ab into a long. (R37) -/
  | mulf (e : EngId) (d : Fin 16) (s t : Fin 32) (x : Sfx)
  /-- Signed word divide giving saturated quotient and exact remainder over 18 steps. (R42) -/
  | div (e : EngId) (d : Fin 16) (s t : Fin 32)
  /-- Unsigned word divide. (R43) -/
  | divu (e : EngId) (d : Fin 16) (s t : Fin 32)
  /-- Q15 fractional divide. (R45) -/
  | divq (e : EngId) (d s t : Fin 32)
  /-- Adds a 5-bit immediate under MW.OVF. (R153) -/
  | addq (e : EngId) (d : Fin 32) (i : BitVec 5)
  /-- Adds a 16-bit immediate under MW.OVF, saturating or wrapping by function. (R153) -/
  | addi (e : EngId) (d : Fin 32) (i : Word) (x : ISfx)
  /-- Unsigned add of a 16-bit immediate. (R153) -/
  | addui (e : EngId) (d : Fin 32) (i : Word)
  /-- Bitwise and with a 16-bit immediate. (R153) -/
  | andi (e : EngId) (d : Fin 32) (i : Word)
  /-- Bitwise or with a 16-bit immediate. (R153) -/
  | ori (e : EngId) (d : Fin 32) (i : Word)
  /-- Bitwise exclusive or with a 16-bit immediate. (R153) -/
  | xori (e : EngId) (d : Fin 32) (i : Word)
  /-- Signed compare with a 16-bit immediate. (R153) -/
  | cmpi (e : EngId) (d : Fin 32) (i : Word)
  /-- Unsigned compare with a 16-bit immediate. (R153) -/
  | cmpui (e : EngId) (d : Fin 32) (i : Word)
  /-- Signed shift by a signed 16-bit immediate count. (R153) -/
  | shli (e : EngId) (d : Fin 32) (i : Word) (x : ISfx)
  /-- Logical left shift by an immediate count. (R153) -/
  | lsli (e : EngId) (d : Fin 32) (i : Word)
  /-- Logical right shift by an immediate count. (R153) -/
  | lsri (e : EngId) (d : Fin 32) (i : Word)
  /-- Adds two longs fitted by suffix or MW.OVF. (R154) -/
  | ladd (e : EngId) (d s t : Fin 16) (x : Sfx)
  /-- Subtracts two longs fitted by suffix or MW.OVF. (R154) -/
  | lsub (e : EngId) (d s t : Fin 16) (x : Sfx)
  /-- Unsigned wrapping long add. (R154) -/
  | laddu (e : EngId) (d s t : Fin 16)
  /-- Unsigned wrapping long subtract. (R154) -/
  | lsubu (e : EngId) (d s t : Fin 16)
  /-- Absolute value of a long. (R52) -/
  | labs (e : EngId) (d s : Fin 16) (x : Sfx)
  /-- Negation of a long. (R52) -/
  | lneg (e : EngId) (d s : Fin 16) (x : Sfx)
  /-- Long add with carry assigning C and SO as L_add_c. (R54) -/
  | laddc (e : EngId) (d s t : Fin 16)
  /-- Long subtract with carry assigning C and SO as L_sub_c. (R54) -/
  | lsubc (e : EngId) (d s t : Fin 16)
  /-- Saturates a long from SO and C as L_sat. (R54) -/
  | lsat (e : EngId) (d s : Fin 16)
  /-- Compares two longs. (R154) -/
  | lcmp (e : EngId) (a b : Fin 16)
  /-- Bitwise and of longs. (R154) -/
  | land (e : EngId) (d s t : Fin 16)
  /-- Bitwise or of longs. (R154) -/
  | lor (e : EngId) (d s t : Fin 16)
  /-- Bitwise exclusive or of longs. (R154) -/
  | lxor (e : EngId) (d s t : Fin 16)
  /-- Signed left shift of a long. (R47) -/
  | lshl (e : EngId) (d s : Fin 16) (t : Fin 32) (x : Sfx)
  /-- Signed right shift of a long. (R47) -/
  | lshr (e : EngId) (d s : Fin 16) (t : Fin 32) (x : Sfx)
  /-- Rounding right shift of a long. (R48) -/
  | lshrr (e : EngId) (d s : Fin 16) (t : Fin 32) (x : Sfx)
  /-- Logical left shift of a long. (R49) -/
  | llsl (e : EngId) (d s : Fin 16) (t : Fin 32)
  /-- Logical right shift of a long. (R49) -/
  | llsr (e : EngId) (d s : Fin 16) (t : Fin 32)
  /-- Normalisation count of a long. (R51) -/
  | lnorm (e : EngId) (d : Fin 32) (s : Fin 16)
  /-- Long multiply-accumulate of 2ab. (R37) -/
  | lmac (e : EngId) (d : Fin 16) (s t : Fin 32) (x : Sfx)
  /-- Long multiply-subtract of 2ab. (R37) -/
  | lmsu (e : EngId) (d : Fin 16) (s t : Fin 32) (x : Sfx)
  /-- Multiply-accumulate with carry as L_macNs. (R54) -/
  | lmacc (e : EngId) (d : Fin 16) (s t : Fin 32)
  /-- Multiply-subtract with carry as L_msuNs. (R54) -/
  | lmsuc (e : EngId) (d : Fin 16) (s t : Fin 32)
  /-- Multiply-accumulate and round to the high word. (R37) -/
  | macr (e : EngId) (d : Fin 16) (s t : Fin 32)
  /-- Multiply-subtract and round to the high word. (R37) -/
  | msur (e : EngId) (d : Fin 16) (s t : Fin 32)
  /-- Rounds a long to a word, HALF_UP, saturating. (R31) -/
  | rndh (e : EngId) (d : Fin 32) (s : Fin 16)
  /-- Extracts bits 31:16 of a long. (R154) -/
  | exth (e : EngId) (d : Fin 32) (s : Fin 16)
  /-- Extracts bits 15:0 of a long. (R154) -/
  | extl (e : EngId) (d : Fin 32) (s : Fin 16)
  /-- Deposits a word into the high half of a long. (R53) -/
  | deph (e : EngId) (d : Fin 16) (s : Fin 32)
  /-- Sign-extends a word to a long. (R53) -/
  | depl (e : EngId) (d : Fin 16) (s : Fin 32)
  /-- Signed long by word divide over 34 steps. (R42) -/
  | ldiv (e : EngId) (d s : Fin 16) (t : Fin 32)
  /-- Unsigned long by word divide. (R43) -/
  | ldivu (e : EngId) (d s : Fin 16) (t : Fin 32)
  /-- Adds a sign-extended word to an address register modulo 2^48. (R154) -/
  | aaddw (e : EngId) (d s : Fin 16) (t : Fin 32)
  /-- Adds a sign-extended long to an address register. (R154) -/
  | aaddl (e : EngId) (d s t : Fin 16)
  /-- Difference of two address registers into a long. (R154) -/
  | adiff (e : EngId) (d s t : Fin 16)
  /-- Unsigned compare of two address registers. (R154) -/
  | acmp (e : EngId) (a b : Fin 16)
  /-- Adds a 32-bit immediate to a long. (R154) -/
  | laddi (e : EngId) (d : Fin 16) (i : Long) (x : ISfx)
  /-- Compares a long with a 32-bit immediate. (R154) -/
  | lcmpi (e : EngId) (d : Fin 16) (i : Long)
  /-- Adds a 32-bit immediate to an address register. (R154) -/
  | aaddi (e : EngId) (d : Fin 16) (i : Long)
  /-- Adds 2ab exactly to a rod. (R38) -/
  | kmac (e : EngId) (k : Fin 4) (s t : Fin 32)
  /-- Adds ab exactly to a rod. (R38) -/
  | kmaci (e : EngId) (k : Fin 4) (s t : Fin 32)
  /-- Subtracts 2ab exactly from a rod. (R38) -/
  | kmsu (e : EngId) (k : Fin 4) (s t : Fin 32)
  /-- Subtracts ab exactly from a rod. (R38) -/
  | kmsui (e : EngId) (k : Fin 4) (s t : Fin 32)
  /-- Adds a long or rod exactly to a rod. (R38) -/
  | kadd (e : EngId) (k : Fin 4) (s : KSrc)
  /-- Clears a rod. (R155) -/
  | kclr (e : EngId) (k : Fin 4)
  /-- Copies one rod to another. (R155) -/
  | kmov (e : EngId) (d s : Fin 4)
  /-- Loads a word into a rod as Q15. (R155) -/
  | kldw (e : EngId) (k : Fin 4) (s : Fin 32)
  /-- Loads a sign-extended long into a rod. (R155) -/
  | kldl (e : EngId) (k : Fin 4) (s : Fin 16)
  /-- Moves a residue register to a word register. (R155) -/
  | mfe (e : EngId) (d : Fin 32) (s : Fin 4)
  /-- Moves a word register to a residue register. (R155) -/
  | mte (e : EngId) (d : Fin 4) (s : Fin 32)
  /-- Narrows a long to a word by R30 with a selected residue. (R39) -/
  | lrnd (e : EngId) (f : LRnd)
  /-- Narrows a rod to a word by R30 with the rod's residue. (R39) -/
  | rndw (e : EngId) (f : KRnd 32)
  /-- Narrows a rod to a long by R30 with the rod's residue. (R39) -/
  | rndl (e : EngId) (f : KRnd 16)
  /-- Advances a ratio stepper once and returns input samples crossed. (R66) -/
  | qadv (e : EngId) (d : Fin 32) (q : Fin 4)
  /-- Advances a ratio stepper k times at once. (R66) -/
  | qadvn (e : EngId) (q : Fin 4) (l : Fin 16)
  /-- Sets a ratio stepper's increment and denominator. (R66) -/
  | qrate (e : EngId) (q : Fin 4) (a b : Fin 16)
  /-- Reads a stepper's input sample index. (R66) -/
  | qidx (e : EngId) (d : Fin 16) (q : Fin 4)
  /-- Reads a stepper's phase fraction. (R66) -/
  | qfrc (e : EngId) (d : Fin 32) (q : Fin 4)
  /-- Adds the exact lane dot product 2ab to a rod. (R63) -/
  | kdot (e : EngId) (k : Fin 4) (a b : Fin 16)
  /-- Adds the sum of a lane accumulator's lanes to a rod. (R63) -/
  | vusum (e : EngId) (k : Fin 4) (u : Fin 4)
  /-- Element-wise lane add. (R58) -/
  | vadd (e : EngId) (f : VSum)
  /-- Element-wise lane subtract. (R58) -/
  | vsub (e : EngId) (f : VSum)
  /-- Element-wise rounded Q15 lane product. (R58) -/
  | vmulr (e : EngId) (f : VSum)
  /-- Element-wise truncated Q15 lane product. (R58) -/
  | vmulh (e : EngId) (d a b : Fin 16) (m : LMask) (x : Sfx)
  /-- Element-wise lane negation. (R58) -/
  | vneg (e : EngId) (d a : Fin 16) (m : LMask) (x : Sfx)
  /-- Element-wise lane absolute value. (R58) -/
  | vabs (e : EngId) (d a : Fin 16) (m : LMask) (x : Sfx)
  /-- Element-wise signed lane minimum. (R58) -/
  | vmin (e : EngId) (d a b : Fin 16) (m : LMask)
  /-- Element-wise signed lane maximum. (R58) -/
  | vmax (e : EngId) (d a b : Fin 16) (m : LMask)
  /-- Bitwise lane and. (R158) -/
  | vand (e : EngId) (d a b : Fin 16) (m : LMask)
  /-- Bitwise lane or. (R158) -/
  | vor (e : EngId) (d a b : Fin 16) (m : LMask)
  /-- Bitwise lane exclusive or. (R158) -/
  | vxor (e : EngId) (d a b : Fin 16) (m : LMask)
  /-- Copies a lane register. (R157) -/
  | vmov (e : EngId) (f : VMv)
  /-- Broadcasts a word register to every active lane. (R158) -/
  | vsplat (e : EngId) (d : Fin 16) (w : Fin 16) (m : LMask)
  /-- Selects lanes of two registers by a predicate. (R58) -/
  | vsel (e : EngId) (d a b : Fin 16) (sel : Fin 4) (m : LMask)
  /-- Signed lane left shift by a register count. (R58) -/
  | vshl (e : EngId) (d a : Fin 16) (w : Fin 16) (m : LMask) (x : Sfx)
  /-- Signed lane right shift by a register count. (R58) -/
  | vshr (e : EngId) (d a : Fin 16) (w : Fin 16) (m : LMask) (x : Sfx)
  /-- Signed lane left shift by an immediate count. (R158) -/
  | vshli (e : EngId) (d a : Fin 16) (i : Fin 16) (m : LMask) (x : Sfx)
  /-- Signed lane right shift by an immediate count. (R158) -/
  | vshri (e : EngId) (d a : Fin 16) (i : Fin 16) (m : LMask) (x : Sfx)
  /-- Takes lanes of the 32-lane concatenation offset by k. (R159) -/
  | vslide (e : EngId) (d a b : Fin 16) (n : Fin 16) (m : LMask)
  /-- Adds 2ab to each active lane accumulator modulo 2^48. (R60) -/
  | vmac (e : EngId) (f : VAcc)
  /-- Adds ab to each active lane accumulator. (R60) -/
  | vmaci (e : EngId) (f : VAcc)
  /-- Subtracts 2ab from each active lane accumulator. (R60) -/
  | vmsu (e : EngId) (u : Fin 4) (a b : Fin 16) (m : LMask)
  /-- Subtracts ab from each active lane accumulator. (R60) -/
  | vmsui (e : EngId) (u : Fin 4) (a b : Fin 16) (m : LMask)
  /-- Adds a sign-extended lane to each lane accumulator. (R60) -/
  | vuadd (e : EngId) (u : Fin 4) (a : Fin 16) (m : LMask)
  /-- Subtracts a sign-extended lane from each lane accumulator. (R60) -/
  | vusub (e : EngId) (u : Fin 4) (a : Fin 16) (m : LMask)
  /-- Clears active lanes of a lane accumulator. (R60) -/
  | vclr (e : EngId) (f : VClr)
  /-- Narrows each active accumulator lane to a v register by R30. (R62) -/
  | vrnd (e : EngId) (f : VRnd)
  /-- Lane equality compare into a predicate. (R58) -/
  | vcmpeq (e : EngId) (p : Fin 4) (a b : Fin 16) (m : LMask)
  /-- Lane signed less-than compare into a predicate. (R58) -/
  | vcmplt (e : EngId) (p : Fin 4) (a b : Fin 16) (m : LMask)
  /-- Lane signed less-or-equal compare into a predicate. (R58) -/
  | vcmple (e : EngId) (p : Fin 4) (a b : Fin 16) (m : LMask)
  /-- Bitwise and of predicates. (R158) -/
  | pand (e : EngId) (d a b : Fin 4)
  /-- Bitwise or of predicates. (R158) -/
  | por (e : EngId) (d a b : Fin 4)
  /-- Bitwise exclusive or of predicates. (R158) -/
  | pxor (e : EngId) (d a b : Fin 4)
  /-- Complements a predicate. (R158) -/
  | pnot (e : EngId) (d a : Fin 4)
  /-- Loads a predicate from a word register. (R158) -/
  | pmovw (e : EngId) (d : Fin 4) (w : Fin 16)
  /-- Reads VV, VSO, VSAT or a predicate into a word register. (R158) -/
  | vmff (e : EngId) (d : Fin 16) (f : VFlagReg)
  /-- Writes VV, VSO or VSAT from a word register, the explicit lane-flag write. (R59) -/
  | vmtf (e : EngId) (f : VFlag3) (w : Fin 16)
  /-- Conditional or unconditional branch with one delay slot and optional annul. (R133) -/
  | bcond (e : EngId) (c : Fin 16) (annul : Bool) (d : BitVec 21)
  /-- Relative call writing a14, with a delay slot. (R161) -/
  | call (e : EngId) (annul : Bool) (d : BitVec 21)
  /-- Jump to an address register, with a delay slot. (R160) -/
  | jr (e : EngId) (a : Fin 16)
  /-- Call through an address register writing a14. (R161) -/
  | callr (e : EngId) (a : Fin 16)
  /-- Returns to a14, with a delay slot. (R119) -/
  | ret (e : EngId)
  /-- Loads a word at the effective address of its addressing mode. (R162) -/
  | ld (e : EngId) (t : Fin 32) (m : MemOp)
  /-- Stores a word into the store buffer. (R162) -/
  | st (e : EngId) (t : Fin 32) (m : MemOp)
  /-- Loads a long. (R162) -/
  | ldl (e : EngId) (t : Fin 16) (m : MemOp)
  /-- Stores a long. (R162) -/
  | stl (e : EngId) (t : Fin 16) (m : MemOp)
  /-- Loads an address register. (R162) -/
  | lda (e : EngId) (t : Fin 16) (a : Fin 16) (inc : Bool)
  /-- Stores an address register. (R162) -/
  | sta (e : EngId) (t : Fin 16) (a : Fin 16) (inc : Bool)
  /-- Loads a lane register. (R162) -/
  | vld (e : EngId) (t : Fin 16) (a : Fin 16) (inc : Bool)
  /-- Stores a lane register. (R162) -/
  | vst (e : EngId) (t : Fin 16) (a : Fin 16) (inc : Bool)
  /-- Loads a lane accumulator. (R162) -/
  | uld (e : EngId) (t : Fin 4) (a : Fin 16) (inc : Bool)
  /-- Stores a lane accumulator. (R162) -/
  | ust (e : EngId) (t : Fin 4) (a : Fin 16) (inc : Bool)
  /-- Loads a rod. (R162) -/
  | kld (e : EngId) (t : Fin 4) (a : Fin 16) (inc : Bool)
  /-- Stores a rod. (R162) -/
  | kst (e : EngId) (t : Fin 4) (a : Fin 16) (inc : Bool)
  /-- Loads a ratio stepper from 9 words. (R66) -/
  | qset (e : EngId) (t : Fin 4) (a : Fin 16) (inc : Bool)
  /-- Stores a ratio stepper as 9 words. (R66) -/
  | qst (e : EngId) (t : Fin 4) (a : Fin 16) (inc : Bool)
  /-- Loads a word with a 32-bit or PC-relative displacement. (R162) -/
  | ldx (e : EngId) (t : Fin 32) (b : XBase)
  /-- Stores a word with a 32-bit or PC-relative displacement. (R162) -/
  | stx (e : EngId) (t : Fin 32) (b : XBase)
  /-- Atomic fetch-and-add of one word. (R163) -/
  | xadd (e : EngId) (t : Fin 32) (a : Fin 16)
  /-- Atomic exchange of one word. (R163) -/
  | swap (e : EngId) (t : Fin 32) (a : Fin 16)
  /-- Atomic compare-and-swap of one word. (R163) -/
  | cas (e : EngId) (t : Fin 16) (a : Fin 16)
  /-- Computes an effective address into an address register. (R164) -/
  | lea (e : EngId) (d : Fin 16) (b : XBase)
  /-- Loads BRS, BRE and BRC to start a block repeat. (R136) -/
  | rpt (e : EngId) (c : RptCount) (o : Word)
  /-- Copies a string of words element by element. (R138) -/
  | movs (e : EngId) (upto : Nat)
  /-- Fills a string of words with w31. (R138) -/
  | fills (e : EngId) (upto : Nat)
  /-- Compares two strings until a difference. (R138) -/
  | cmps (e : EngId) (upto : Nat)
  /-- Scans a string for w31. (R138) -/
  | scans (e : EngId) (upto : Nat)
  /-- Does nothing. (R166) -/
  | nop (e : EngId)
  /-- Waits until an enabled interrupt line is pending. (R169) -/
  | wait (e : EngId)
  /-- Drains the store buffer, discards fetched instructions and refetches. (R100) -/
  | isync (e : EngId)
  /-- Waits until older stores and write-backs are performed. (R204) -/
  | fence (e : EngId)
  /-- Raises BREAK. (R139) -/
  | brk (e : EngId)
  /-- Raises SYSCALL with a 4-bit code. (R139) -/
  | trap (e : EngId) (n : Fin 16)
  /-- Invalidates one instruction-cache line. (R202) -/
  | iflush (e : EngId) (a : Fin 16)
  /-- Writes back and invalidates one data-cache line. (R202) -/
  | dflush (e : EngId) (a : Fin 16)
  /-- Invalidates one data-cache line without write-back. (R202) -/
  | dinv (e : EngId) (a : Fin 16)
  /-- Writes back one data-cache line and keeps it. (R202) -/
  | dclean (e : EngId) (a : Fin 16)
  /-- Invalidates the BTB, resets counters and clears history. (R92) -/
  | pscrub (e : EngId)
  /-- Returns from a kernel handler re-executing the instruction at SPOT. (R142) -/
  | reth (e : EngId)
  /-- Returns from a kernel handler continuing at SNEXT. (R142) -/
  | reths (e : EngId)
  /-- Returns from the machine-check handler. (R142) -/
  | retm (e : EngId)
  /-- Writes a TLB entry from a descriptor, invalidating overlapping entries. (R195) -/
  | tlbput (e : EngId) (a : Fin 16)
  /-- Stores a TLB entry as a descriptor. (R195) -/
  | tlbget (e : EngId) (a : Fin 16)
  /-- Searches the TLB and writes TLBIDX. (R195) -/
  | tlbfind (e : EngId) (a : Fin 16)
  /-- Invalidates every TLB entry. (R195) -/
  | tlbdropall (e : EngId)
  /-- Invalidates non-global entries of one ASID. (R195) -/
  | tlbdropasid (e : EngId) (s : Fin 32)
  /-- Waits for prior padding, reads the waybill and starts the budget meter and post tracker. (R168) -/
  | jobstart (e : EngId) (a : Fin 16)
  /-- Waits for the store buffer and posts, stops the meter, reports the charge and starts padding. (R168) -/
  | jobend (e : EngId)
  /-- Sends 1 to 16 words to another engine's input queue and returns a status. (R170) -/
  | msend (e : EngId) (d : Fin 32) (a : Fin 16)
  /-- Posts 16 lanes as the next block of a board entry. (R71) -/
  | cbpost (e : EngId) (v : Fin 16) (c : Fin 16)
  /-- Loads a closed block of the previous generation into a lane accumulator. (R74) -/
  | cbld (e : EngId) (u : Fin 4) (c : Fin 16) (j : Fin 16)
  /-- An instruction with a reserved or unimplemented encoding raises EMULATE. (R131) -/
  | reservedEncoding (e : EngId) (w0 w1 w2 : Word)
  /-- A pending enabled interrupt is taken at a retirement point. (R146) -/
  | interrupt (e : EngId) (abandon : Bool)
  /-- A store-buffer entry drains to memory in program order. (R96) -/
  | storeDrain (e : EngId)
  /-- A delivery is written into an engine's input queue and IQ requested, or refused or dropped. (R114) -/
  | queueDelivery (e : EngId) (source : Fin 4) (sender : Word) (data : Delivery)
  /-- A post reaches its board and is added, poisoned as excess, or discarded. (R72) -/
  | postArrive (n : Nat)
  /-- A courier descriptor's writes are performed; the next is read and CUR may be requested. (R209) -/
  | descriptorComplete (f : Fin 24) (c : Fin 16)
  /-- A courier channel stops at a descriptor it cannot perform. (R210) -/
  | chainError (f : Fin 24) (c : Fin 16)
  /-- The controller scrubs a group, correcting or poisoning it. (R215) -/
  | scrub (at_ : Checked) (found : Finding) (free pass : Bool)
  /-- A host-window load not completed 10 µs after leaving the engine raises ACCESS HOST. (R314) -/
  | hostLoadTimeout (e : EngId)
  /-- A host-window load completion arrives, or its translation is refused. (R217) -/
  | hostLoadComplete (e : EngId) (data : LoadEnd)
  /-- An ATS Invalidation Request drops entries and is completed. (R313) -/
  | atsInvalidation (itag : Fin 32) (pasid page pages : Nat)
  /-- A received Ethernet frame is stamped, parsed and disposed of. (R224) -/
  | frameReceive (port : Fin 8) (octets : List Byte) (ovr : Bool)
  /-- A datagram not reassembled 1 s after its first fragment is discarded. (R226) -/
  | fragTimeout
  /-- A port's link comes up or goes down, setting LINK_CHG. (R220) -/
  | portLinkChange (port : Fin 8) (phy : Option (Fin 8))
  /-- The device starts a classifier re-key by itself. (R229) -/
  | rekeyStart
  /-- A re-key completes and its table becomes active. (R230) -/
  | rekeyDone
  /-- A Gatehouse table entry or template is rebuilt from the stewards' copy. (R457) -/
  | tableRebuild (item : GhItem) (lost : Bool)
  /-- A departure entry or list reaches the departure board. (R247) -/
  | departureSubmit (coach : Option Nat) (inst : Nat) (list : DepList)
  /-- A departure entry's RELEASE is reached and the frame is built and sent or discarded. (R248) -/
  | departureRelease
  /-- A standby-buffer frame is discarded 500 µs after arrival. (R379) -/
  | standbyExpired
  /-- An Innkeeper round begins; policy changes, merges, frame power and pending reductions take effect. (R257) -/
  | round (merge : Option (Nat × Nat))
  /-- A 2.5 ms grid boundary: periods begin, moves and board changes take effect. (R255) -/
  | periodBoundary
  /-- At a grid boundary the primary sends CUT; a secondary applies it. (R375) -/
  | cut (recv : Option (Nat × Nat))
  /-- When a job's state is staged, its waybill is delivered to the reckoner's queue. (R263) -/
  | waybillIssue (c : Nat) (state depart : Addr) (chain : Nat)
  /-- A waiting best-effort job is issued by finish tag when its tokens allow. (R277) -/
  | beIssue (r : Fin 192) (state depart : Addr)
  /-- The Innkeeper pads board entries of a period whose job did not run. (R511) -/
  | innkeeperPadding (c : Nat)
  /-- Tally closes a minute and forms ledger records. (R350) -/
  | minuteClose
  /-- A formed or held ledger record is written to the ledger ring. (R354) -/
  | ledgerRecordWrite
  /-- Every group has latched and the snapshot values replace the previous ones. (R364) -/
  | snapshotComplete
  /-- The slot classifier samples the engine every 0.625 ns. (R361) -/
  | tdSample (r : Fin 192)
  /-- No TCXO edge for 200 ns; time continues from the internal reference. (R327) -/
  | tcxoLost (edges : RefEdges)
  /-- TCXO edges present for 1 ms; counting from them resumes. (R327) -/
  | tcxoResume
  /-- A PPS_IN rising edge captures device time. (R332) -/
  | ppsCapture (lowNs : Nat)
  /-- PPS_OUT rises at the offset second. (R334) -/
  | ppsOutRise
  /-- PPS_OUT falls WIDTH ms after rising. (R334) -/
  | ppsOutFall
  /-- An alarm comparator matches device time, requesting PORTER or starting wake. (R338) -/
  | alarmMatch (n : Fin 16)
  /-- A frame timer matches and requests TMR. (R344) -/
  | timerMatch (f : Fin 24) (t : Fin 8)
  /-- Device time reaches NP_GSTART and armed timers start. (R342) -/
  | globalStart
  /-- An analogue comparator enters its condition. (R339) -/
  | analogueTrip (n : Fin 4) (v : Int)
  /-- A 100 µs control interval: monitors read, one control action, stage evaluated. (R400) -/
  | governorInterval (paces : List Nat) (temps : List Int) (avsOk : Bool)
  /-- A frame's power-up, self-test, zero-fill and calibration complete. (R407) -/
  | framePowerUp (f : Fin 24) (x : PowerUp)
  /-- The recalibration interval expires and a frame is drained for recalibration. (R397) -/
  | recalStart
  /-- A draining frame holds no coach and no board and becomes empty. (R272) -/
  | drainComplete (f : Fin 24)
  /-- A sensor reaches 115 °C and the Night Porter removes the core supply. (R404) -/
  | thermalTrip (sensor : Int)
  /-- The always-on brown-out detector trips. (R418) -/
  | aonBrownout
  /-- The always-on domain powers up and resets time and Night Porter registers. (R322) -/
  | aonPowerUp
  /-- Every 10 ms in Night the retention draw is predicted and slots released. (R417) -/
  | retentionCheck (t : Int)
  /-- A wake stage's ready signal arrives and the next stage begins. (R414) -/
  | wakeStageReady (x : WakeReady)
  /-- A wake stage times out and earlier stages are powered down. (R414) -/
  | wakeStageTimeout (n : Fin 4)
  /-- 100 ms after a failed wake the sequence starts again. (R414) -/
  | wakeRetry
  /-- 20 µs without KICK stops the heartbeat, closes the egress gate and sends FENCED. (R386) -/
  | fenceTimeout
  /-- Release of SYS_RESET_N starts the start-up sequence. (R431) -/
  | sysResetN (strap : Bool)
  /-- A start-up stage completes and the next proceeds. (R431) -/
  | startupStage (x : StartIn)
  /-- A trial start not service-ready within 3 s restarts the device. (R432) -/
  | trialWatchdog
  /-- Assertion of PERST_N resets the PCI Express function. (R287) -/
  | perstN
  /-- A Function Level Reset resets the function without affecting service. (R287) -/
  | functionLevelReset
  /-- A configuration request, answered with Retry Status before host-ready. (R287) -/
  | configRequest (dword : Fin 1024) (write : Option Long)
  /-- The function enters D3hot and stops host-side DMA. (R287) -/
  | d3hotEntry
  /-- The function returns to D0 and held completions are written. (R287) -/
  | d0Entry
  /-- Unmasking a vector with its PBA bit set sends its message. (R317) -/
  | msixUnmask (v : Fin 2048) (w : Word)
  /-- A journal entry is written to the journal region, erasing sectors ahead. (R446) -/
  | norWrite (ok : Bool)
  /-- A pending piece activation reaches its instant A. (R437) -/
  | activation (kind index : Nat)
  /-- A compare point finds the copies differ and the pair checkstops. (R452) -/
  | lockstepMismatch (p : Fin 4)
  /-- A HELLO from the twin is received and pairing evaluated. (R367) -/
  | hello (x : Machine.Hello)
  /-- An unpaired device sends HELLO every 1 ms. (R371) -/
  | helloSend
  /-- A refused pairing is retried every 1 s. (R368) -/
  | pairRetry
  /-- A BEAT from the twin is received. (R371) -/
  | beat (t role : Nat) (sync eligible : Bool) (frames mseq : Nat)
  /-- A BEAT is sent every 10 µs. (R371) -/
  | beatSend
  /-- A TIME message is received and the secondary corrects its time. (R380) -/
  | time (tx rx : Nat)
  /-- A TIME message is sent every 1 ms. (R371) -/
  | timeSend
  /-- A forwarded FRAME is applied by the secondary in MSEQ order. (R374) -/
  | frame (mseq stamp : Nat) (port : Fin 8) (stream : Nat) (leg : Bool) (data : List Byte)
  /-- A mirrored committed command is applied by the secondary. (R374) -/
  | commit (c : Commit)
  /-- A mirrored decision is applied by the secondary. (R254) -/
  | decision (mseq : Nat) (d : Machine.Decision) (state depart : Addr)
  /-- A twin digest is received and compared, and a difference resolved. (R382) -/
  | digest (l : List Machine.Digest)
  /-- A digest not received 5 ms after release counts as different. (R382) -/
  | digestTimeout
  /-- A CUT not applied by B + 50 µs clears SYNC. (R375) -/
  | cutTimeout
  /-- A twin ledger digest is received and compared. (R385) -/
  | ledger (n : Fin 512) (m : Machine.LedgerMsg)
  /-- A YIELD carrying H is received and the planned handover begins. (R392) -/
  | yieldMessage (mseq h : Nat)
  /-- At H the two devices exchange roles. (R392) -/
  | handover
  /-- FENCED is received and an eligible synced secondary takes over. (R387) -/
  | fenced
  /-- Heartbeat and messages silent for 50 µs; the secondary takes the primary role. (R388) -/
  | takeover
  /-- The new primary's board switches from SHADOW to sending and resends kept entries. (R389) -/
  | boardSwitch
  /-- The heartbeat alone falls silent for 50 µs. (R387) -/
  | hbFault
  /-- The link declares itself down after 16 retries or 50 µs without reception. (R370) -/
  | linkDown
  /-- A failing lane is dropped and the link runs on two lanes. (R370) -/
  | laneDown
  /-- The link trains and comes up; two primaries are resolved. (R393) -/
  | linkUp (four : Bool) (peerRole : Fin 4) (peerTakeover : Nat)
  /-- A secondary with SYNC = 0 starts a resync by itself. (R394) -/
  | resyncStart
  /-- A STATE chunk is installed on the syncing device. (R394) -/
  | state (x : Machine.StateObj)
  /-- A coach's state is installed from the period it holds. (R384) -/
  | coachState (c h : Nat) (words : List Word)
  /-- The resync ends and the device becomes SECONDARY with SYNC = 1. (R394) -/
  | stateDone (mseq : Nat)
  /-- Binds a FREE instance to a PASID with shares and limits. (R303) -/
  | instanceCreate (e : Entry)
  /-- Changes an instance's shares, weight and limits, possibly pending. (R275) -/
  | instanceSetShare (e : Entry)
  /-- Stops an instance's waybills and withdraws its coaches. (R309) -/
  | instanceQuiesce (e : Entry)
  /-- A quiesce completes and the instance becomes QUIESCED. (R309) -/
  | quiesceComplete (n : Fin 512)
  /-- Removes every object of a quiesced instance and makes it ACTIVE. (R310) -/
  | instanceReset (e : Entry)
  /-- Removes a quiesced instance and frees it. (R311) -/
  | instanceRemove (e : Entry)
  /-- Rebinds an instance to a new PASID. (R292) -/
  | instanceSetPasid (e : Entry)
  /-- A failed device request for an instance puts it in ERROR. (R293) -/
  | instanceError (n : Fin 512) (cause : Fin 4)
  /-- Starts dirty-page logging into a bitmap. (R315) -/
  | dirtyLogStart (e : Entry)
  /-- Switches the dirty log to a new bitmap. (R316) -/
  | dirtyLogSwap (e : Entry)
  /-- Stops dirty-page logging. (R303) -/
  | dirtyLogStop (e : Entry)
  /-- Manager asks for a frame to be drained. (R272) -/
  | frameDrain (e : Entry)
  /-- Manager returns a frame to service. (R272) -/
  | frameReturn (e : Entry)
  /-- Manager requests a classifier re-key. (R229) -/
  | classRekey (e : Entry)
  /-- Erases the inactive slot for staging. (R435) -/
  | pieceStageBegin (x : StageBegin)
  /-- Writes units of the staged image into the slot. (R435) -/
  | pieceStageWrite (e : Entry) (source : HostRead (List Byte)) (same : Bool)
  /-- Verifies the staged slot. (R435) -/
  | pieceStageVerify (e : Entry) (same : Bool)
  /-- Schedules activation of one staged piece at instant A. (R437) -/
  | pieceActivate (e : Entry)
  /-- Makes the staged slot DEFAULT or a trial start. (R439) -/
  | pieceActivateCommit (e : Entry)
  /-- Confirms a trial start as DEFAULT. (R439) -/
  | pieceActivateConfirm (e : Entry)
  /-- Writes journal entries, own or twin copy, to a host buffer. (R449) -/
  | journalRead (e : Entry)
  /-- Sets and enables the ledger ring. (R353) -/
  | ledgerRingSet (e : Entry)
  /-- Disables the ledger ring. (R353) -/
  | ledgerRingDisable (e : Entry)
  /-- Seeds an instance's ledger from a CLOSE or SUSPEND record. (R356) -/
  | ledgerRingSeed (e : Entry) (block : HostRead (List Word))
  /-- Takes a snapshot and writes it to a host buffer. (R365) -/
  | snapshot (e : Entry)
  /-- Starts a planned handover. (R392) -/
  | twinSwitch (e : Entry)
  /-- Discards this device's objects and enters SYNCING. (R394) -/
  | twinResync (e : Entry)
  /-- Returns frames to service for the Full state. (R410) -/
  | powerStateFull (e : Entry)
  /-- Stops best-effort issue and powers every frame down. (R410) -/
  | powerStatePark (e : Entry)
  /-- Enters Night in the order of R413. (R413) -/
  | powerStateNight (e : Entry)
  /-- Copies a program image and registers its charges. (R305) -/
  | programRegister (e : Entry) (image : HostRead (List Word))
  /-- Removes a registered program not in use. (R305) -/
  | programRemove (e : Entry)
  /-- Opens a channel: stream entry, keys, admission and coach. (R306) -/
  | channelOpen (e : Entry) (block template init : HostRead (List Word))
  /-- Closes a stream after its last period. (R305) -/
  | channelClose (e : Entry)
  /-- Sets a channel's fallback code from its next boundary. (R280) -/
  | fallbackSet (e : Entry)
  /-- Installs an SRTP master key into a context slot. (R307) -/
  | keySet (e : Entry) (block : HostRead (List Word))
  /-- Completes when earlier stream changes apply to every later frame. (R231) -/
  | streamSync (e : Entry)
  /-- Allocates a Counting Board board. (R70) -/
  | boardAlloc (e : Entry)
  /-- Changes a board's expected count from a future generation. (R78) -/
  | boardExpect (e : Entry)
  /-- Releases a board at a generation boundary. (R80) -/
  | boardRelease (e : Entry)
  /-- Submits a best-effort job. (R277) -/
  | beSubmit (e : Entry)
  /-- Copies a frame and submits it to the departure board. (R305) -/
  | sendFrame (e : Entry) (frame : HostRead (List Byte))
  /-- A command with a reserved opcode is refused with OPCODE. (R308) -/
  | reservedCommand (e : Entry) (op : Byte)
  /-- A write of HI_P_CMD_TAIL makes new commands available. (R295) -/
  | cmdDoorbell (n : Fin 512) (w : Word)
  /-- A write of HI_P_CPL_HEAD frees completion entries. (R295) -/
  | cplDoorbell (n : Fin 512) (w : Word)
  /-- A write of HI_P_PUNT_HEAD frees punt entries. (R295) -/
  | puntDoorbell (n : Fin 512) (w : Word)
  /-- A write of ENABLE = 1 to a disabled ring resets its indices. (R294) -/
  | ringEnable (n : Fin 512) (ring : Fin 3) (w : Word)
  /-- A write of ENABLE = 0 stops a ring. (R295) -/
  | ringDisable (n : Fin 512) (ring : Fin 3) (w : Word)
  /-- A write of HI_P_IRQ.ARM arms or sends the instance's interrupt. (R300) -/
  | arm (n : Fin 512) (w : Word)
  /-- A write of TY_LR_HEAD consumes ledger records. (R353) -/
  | ledgerRingDoorbell (ag : Agent) (w : Word)
  /-- A write of TY_SNAP_CTRL.GO starts a snapshot. (R364) -/
  | snapGo (ag : Agent) (w : Word)
  /-- A write of FR_CUR_CTRL.GO starts a channel's chain. (R208) -/
  | courierGo (ag : Agent) (f : Fin 24) (c : Fin 16) (w : Word)
  /-- A write of FR_CUR_CTRL.ABORT stops a channel after its row. (R210) -/
  | courierAbort (ag : Agent) (f : Fin 24) (c : Fin 16) (w : Word)
  /-- A commit of NP_SET sets device time or is refused. (R323) -/
  | npSetCommit (ag : Agent) (w : Word)
  /-- A commit of NP_INC sets the time increment or is ignored. (R320) -/
  | npIncCommit (ag : Agent) (w : Word)
  /-- A commit of NP_GSTART rearms the global start. (R342) -/
  | gstartCommit (ag : Agent) (w : Word)
  /-- A commit of an alarm's compare value or enable, evaluated at once in REACHED mode. (R335) -/
  | alarmCommit (ag : Agent) (n : Fin 16) (value : Bool) (w : Word)
  /-- A commit of a frame timer's compare value or enable, evaluated at once in REACHED mode. (R335) -/
  | timerCompareCommit (ag : Agent) (f : Fin 24) (t : Fin 8) (value : Bool) (w : Word)
  /-- A commit of FR_TMR_COUNT sets the count unless running or TIME. (R344) -/
  | timerCountCommit (ag : Agent) (f : Fin 24) (t : Fin 8) (w : Word)
  /-- A write of CAPNOW captures a frame timer's count. (R343) -/
  | capnow (ag : Agent) (f : Fin 24) (t : Fin 8) (w : Word)
  /-- A read of a capture register's lowest word latches it and clears CAPTURED. (R333) -/
  | captureRead (ag : Agent) (timer : Option (Fin 24 × Fin 8))
  /-- A commit of TY_CNT_VAL sets a counter. (R359) -/
  | counterSet (ag : Agent) (i : Nat) (w : Word)
  /-- A write of ST_CHK_CTRL.SELFTEST tests every comparator. (R455) -/
  | selftest (ag : Agent) (silent : Word) (digest : Bool)
  /-- A steward's write of TW_CTRL.KICK keeps the heartbeat running. (R386) -/
  | kick (p : Fin 4) (w : Word)
  /-- A read of a group's lowest word latches the group into the agent's shadow. (R290) -/
  | groupReadLatch (ag : Agent) (req : ReadReq)
  /-- A write to a group without its own row holds or commits its words. (R290) -/
  | groupWrite (ag : Agent) (off : Nat) (w : Word)
  /-- A write to a register with no row of its own, by its access codes and R9, R508. (R7) -/
  | registerWrite (ag : Agent) (byte : Nat) (octets : List Byte)
  /-- Debug command selecting an engine. (R467) -/
  | select (w : Word)
  /-- Debug command halting the selected engine at a point. (R469) -/
  | halt
  /-- Debug command resuming a halted engine. (R469) -/
  | resume
  /-- Debug command retiring a count of instructions then halting. (R471) -/
  | step (count : Word)
  /-- Debug command reading a register of a halted engine. (R474) -/
  | readReg (r : Word)
  /-- Debug command writing a register of a halted engine. (R474) -/
  | writeReg (r : Word) (data : List Word)
  /-- Debug command reading memory as a separate agent. (R475) -/
  | readMem (a : Addr) (count : Nat) (host : Option (List Word))
  /-- Debug command writing memory as a separate agent. (R475) -/
  | writeMem (a : Addr) (data : List Word)
  /-- Debug command arming an instruction breakpoint. (R472) -/
  | setBp (w : Word) (a : Addr)
  /-- Debug command arming a watchpoint. (R472) -/
  | setWp (w : Word) (a mask : Addr)
  /-- Debug command returning DB_STATUS and the engine's state. (R467) -/
  | status
  /-- A debug request with DBG_REQ low for 1 ms is discarded. (R467) -/
  | requestAbandon
  /-- Boundary-scan BYPASS instruction. (R480) -/
  | bypass
  /-- Boundary-scan IDCODE instruction. (R480) -/
  | idcode
  /-- Boundary-scan SAMPLE/PRELOAD instruction. (R480) -/
  | samplePreload (levels shiftIn : List Bool)
  /-- Boundary-scan EXTEST, taking the balls from the device. (R480) -/
  | extest (levels shiftIn : List Bool)
  /-- Boundary-scan CLAMP instruction. (R480) -/
  | clamp
  /-- Boundary-scan HIGHZ instruction. (R480) -/
  | highz
  /-- TRST_N low resets the test logic and returns the balls to mission use. (R480) -/
  | trstN
  /-- An SMBus Read Word returns one listed register. (R503) -/
  | readWord (x : SmbusRead)
  /-- An SMBus write or unlisted code is answered with NACK. (R503) -/
  | smbusWrite
  /-- A rising edge on TCXO_IN advances device time by the increment, applies committed NP_SET and NP_INC values, and advances TIME and TICKS timers and sampled gates and events. (R319) -/
  | tcxoEdge (pps : Bool)
  /-- The falling edge of SYS_RESET_N while VCORE_EN is low drives VCORE_EN high, restarting the device after a thermal trip or from Night. (R493) -/
  | sysResetNFall
  /-- Release of PERST_N starts PCI Express link training, with host-ready due within 100 ms. (R432) -/
  | perstNRelease
  /-- An analogue comparator's input returns past THRESH by the hysteresis and NP_ANA_STATUS.STATE returns to 0. (R339) -/
  | analogueConditionLeft (n : Fin 4) (v : Int)
  /-- An edge arrives on TWIN_HB_IN, setting TW_STATUS.HB_IN and restarting the 50 µs heartbeat watch that pairing and takeover use. (R386) -/
  | heartbeatEdge
  /-- The Bozil link returns to four lanes, restoring the four-lane LINK ceiling and allowing mirroring and resync to resume. (R373) -/
  | laneReturn
  /-- A port finishes sending a frame, so a delayed admitted frame, a RELEASE-0 submission or a waiting best-effort frame may start. (R248) -/
  | frameTransmitted (port : Fin 8)
  /-- The flash erase of the staging slot completes and PIECE_STAGE BEGIN completes. (R435) -/
  | eraseComplete
  deriving DecidableEq, Repr

end Sys2Proof
end

