-- ==== Sys2Proof/Decode.lean ====
section
/-! DEFINITION. The command a word spells by the opcode table's bits: no row of the table has bits, so none. -/
namespace Sys2Proof

/-- The command that a word of `nbits` bits spells in the opcode table: the table gives no row any bits. (DESIGN CHOICE, log 3) -/
def decodeTableWord (_nbits _w : Nat) : Option Instr := none

end Sys2Proof
end

