-- ==== Sys2Proof/Machine/Regs.lean ====
section
/-! DEFINITION. The state one engine holds: its architectural registers (R116, R127), its TLB, caches, predictor,
store buffer, budget meter, post tracker and debug state. Plain data; every default is the value after reset. -/
namespace Sys2Proof.Machine

/-- The six flags of SW (R26, R123). -/
structure Flags where
  c : Bool := false
  v : Bool := false
  z : Bool := false
  n : Bool := false
  so : Bool := false
  sat : Bool := false
  deriving DecidableEq, Repr

/-- The fields of MW (R123); after reset RND is HALF_UP and every other field 0 (0x0002). -/
structure ModeWord where
  rnd : BitVec 3 := 2#3
  wrap : Bool := false
  dzt : Bool := false
  lpe : Bool := false
  lps : BitVec 2 := 0#2
  deriving DecidableEq, Repr

/-- The three modes of PSR.MODE (R125). -/
inductive Mode where
  | user | kernel | machine
  deriving DecidableEq, Repr

/-- The fields of PSR; after reset MODE is machine and RPE is 1 (0x0022, R121). -/
structure Psr where
  mode : Mode := .machine
  ie : Bool := false
  hl : Bool := false
  walk : Bool := false
  rpe : Bool := true
  pkernel : Bool := false
  pie : Bool := false
  prpe : Bool := false
  deriving DecidableEq, Repr

/-- A ratio stepper: phase, numerator, denominator, increment (R65), at reset 0, 0, 1, 0 (R67). -/
structure Stepper where
  phi : BitVec 48 := 0#48
  num : Long := 0#32
  den : Long := 1#32
  inc : Long := 0#32
  deriving DecidableEq, Repr

/-- The job architectural registers (R116, R122). Lane i of v n is at key 16 n + i, of u n likewise. -/
structure Regs where
  w : Tbl Word := []
  a : Tbl Addr := []
  k : Tbl Rod := []
  e : Tbl Word := []
  v : Tbl Word := []
  u : Tbl (BitVec 48) := []
  p : Tbl Word := []
  q : Tbl Stepper := []
  vv : Word := 0#16
  vso : Word := 0#16
  vsat : Word := 0#16
  fl : Flags := {}
  mw : ModeWord := {}
  brc : Word := 0#16
  brs : Addr := 0#48
  bre : Addr := 0#48
  deriving DecidableEq, Repr

/-- The control registers that are neither PSR nor derived (R127). -/
structure Ctrl where
  spot : Addr := 0#48
  snext : Addr := 0#48
  cause : Word := 0#16
  badaddr : Addr := 0#48
  tw0 : Word := 0#16
  tw1 : Word := 0#16
  tw2 : Word := 0#16
  vbase : Addr := 0#48
  asid : BitVec 12 := 0#12
  ipend : Word := 0#16
  imask : Word := 0#16
  scr : Tbl Addr := []
  psrM : Word := 0#16
  spotM : Addr := 0#48
  snextM : Addr := 0#48
  causeM : Word := 0#16
  badaddrM : Addr := 0#48
  tlbMiss : Bool := false
  tlbIdx : BitVec 6 := 0#6
  hvalid : Bool := false
  hinst : BitVec 9 := 0#9
  deriving DecidableEq, Repr

/-- One TLB entry (R194). -/
structure TlbEntry where
  valid : Bool := false
  size : BitVec 6 := 0#6
  u : Bool := false
  x : Bool := false
  wr : Bool := false
  r : Bool := false
  dev : Bool := false
  c : Bool := false
  g : Bool := false
  asid : BitVec 12 := 0#12
  va : Addr := 0#48
  pa : BitVec 40 := 0#40
  deriving DecidableEq, Repr

/-- A valid line of a cache: physical line number (word address / 16), dirty mark, its 16 words and the places of
its poisoned words, of which `own` have an error of the cache's own array (R200, R510). -/
structure DLine where
  line : Nat
  dirty : Bool
  data : List Word
  bad : List Nat := []
  own : List Nat := []
  deriving DecidableEq, Repr

/-- A branch target buffer entry (R92). -/
structure BtbEntry where
  valid : Bool := false
  tag : BitVec 8 := 0#8
  pc : Addr := 0#48
  target : Addr := 0#48
  deriving DecidableEq, Repr

/-- A two-bit counter with its tag (R92); its reset value is the one PSCRUB gives. -/
structure PredCounter where
  val : BitVec 2 := 1#2
  tag : BitVec 8 := 0#8
  deriving DecidableEq, Repr

/-- One store-buffer entry: 1 to 16 consecutive words at a physical address (R96), the host-window instance it was
issued under (R216), whether it goes to the data cache (R203), whether it is a write-back of a cache line (R202),
whether it continues the store of the entry before it (R96, R97), whether it is a device access (R203), and the places of
its words that are poisoned (R510). -/
structure SbEntry where
  pa : Nat
  words : List Word
  inst : Nat := 0
  cached : Bool := false
  writeBack : Bool := false
  more : Bool := false
  dev : Bool := false
  bad : List Nat := []
  deriving DecidableEq, Repr

/-- The handler an engine is inside of, innermost first (R109): of a synchronous exception of the job's own
instructions, of an interrupt, or of an exception outside the metered instructions. (DESIGN CHOICE, log 25) -/
inductive HandlerKind where
  | sync | intr | other
  deriving DecidableEq, Repr

/-- The budget meter (R108, R112) and the first word, physical, of the instruction last charged (R180). -/
structure Meter where
  running : Bool := false
  overrun : Bool := false
  budget : Long := 0#32
  charge : Long := 0#32
  prev : Option Nat := none
  deriving DecidableEq, Repr

/-- One job's posting record (R71, R75): the 48 words of its waybill and, per board entry, the blocks posted. -/
structure Tracker where
  active : Bool := false
  waybill : List Word := []
  posted : Tbl Nat := []
  deriving DecidableEq, Repr

/-- What an instruction may write that another of its step must not (R86). -/
inductive Res where
  | w (n : Nat) | a (n : Nat) | k (n : Nat) | e (n : Nat) | v (n : Nat) | u (n : Nat) | p (n : Nat) | q (n : Nat)
  | sw | mw | vv | vso | vsat | br
  deriving DecidableEq, Repr

/-- What an instruction's encoding fixes: its words, the least mode that may execute it, whether it is a system or
serialising instruction, whether a delay slot forbids it (R90), whether it is a branch, what it writes, its base charge,
whether a steward lacks it (R116, R172) and whether it stands outside the metered interval (R176). (DESIGN CHOICE, log 2) -/
structure Shape where
  words : List Word
  priv : Mode := .user
  serial : Bool := false
  slotIll : Bool := false
  branch : Bool := false
  writes : List Res := []
  base : Nat := 1
  lacks : Bool := false
  unmetered : Bool := false
  deriving DecidableEq, Repr

/-- The first member of an open pair: the registers before the step, where the second member stands, and what
the first writes (R57, R86, R87). (DEDUCED, log 14) -/
structure PairRec where
  regs : Regs
  next : Addr
  lane : Bool
  writes : List Res
  deriving DecidableEq, Repr

/-- What an event that diverts an engine keeps for the return from it: the pair record of what it interrupted (R23, R87), the point
where the instruction there stands in a delay slot (R90, R104), and the base charge that RETHS owes for the instruction
at SPOT (R142, R176). -/
structure Interrupted where
  pair : Option PairRec := none
  slot : Option Addr := none
  base : Nat := 0
  deriving DecidableEq, Repr

/-- Where a loaded value goes. -/
inductive LoadDst where
  | w (n : Nat) | l (n : Nat) | a (n : Nat) | v (n : Nat) | u (n : Nat) | k (n : Nat) | q (n : Nat)
  | tlb (a : Nat)
  | job
  | movs | cmps | scans
  | msend (n : Nat)
  deriving DecidableEq, Repr

/-- A load in progress at the host window (R217, R314): its destination, the instance it is issued under, the virtual addresses of the
host words it waits for, the words already read with `none` for each awaited one, the base register's update, its
encoding's shape, its charge, the host pages it reads, the byte addresses it reads there, the PASID of its read (R292), and whether
the read has been sent, which waits for a translation (R312). -/
structure PendLoad where
  dst : LoadDst
  inst : Nat
  vas : List Addr
  words : List (Option Word)
  upd : Option (Nat × Addr)
  regs : Regs
  sh : Shape
  charge : Nat
  fetchPa : Nat
  pages : List Nat
  addrs : List Nat
  pasid : Nat
  asked : Bool := false
  deriving DecidableEq, Repr

/-- What an engine is doing. `reset`: waiting in machine mode for the start-up sequence (R121). -/
inductive RunSt where
  | reset
  | running
  | waiting
  | hostWait (p : PendLoad)
  | halted
  | checkstop
  deriving DecidableEq, Repr

/-- A breakpoint or watchpoint of the debug port (R472). -/
structure DebugPoint where
  armed : Bool := false
  lo : Nat := 0
  hi : Nat := 0
  kind : Nat := 0
  deriving DecidableEq, Repr

/-- A performance counter: control bits, event selector and count (R358 to R362). -/
structure PerfCtr where
  en : Bool := false
  satMode : Bool := false
  sample : Bool := false
  ovf : Bool := false
  ev : Byte := 0#8
  val : Nat := 0
  deriving DecidableEq, Repr

/-- One engine. `ftlb` and `fasid` are the TLB and the ASID as fetch uses them until the next ISYNC or return (R95, R128);
`qld` marks the ratio steppers the kernel has loaded since the last JOBSTART (R67); `heldK` holds what each handler not yet left has
interrupted, the last first, `heldM` what the machine-check handler has; `pmcDue` counts the instructions that may still retire before a PMC interrupt asked for
when it could be taken (R362); `issuedIn` marks the issue slots in which an instruction has issued since the slot classifier's last
sample (R361); `skipDbg` and `skipWp` mark the instruction, and the access, that a RESUME or STEP lets pass its breakpoint and its
watchpoints (R472). -/
structure Engine where
  regs : Regs := {}
  psr : Psr := {}
  ctrl : Ctrl := {}
  pc : Addr := 0#48
  npc : Option Addr := none
  slot : Bool := false
  annul : Bool := false
  run : RunSt := .reset
  tlb : Tbl TlbEntry := []
  ftlb : Tbl TlbEntry := []
  fasid : BitVec 12 := 0#12
  qld : BitVec 4 := 0#4
  dcache : List DLine := []
  icache : List DLine := []
  btb : Tbl BtbEntry := []
  pctr : Tbl PredCounter := []
  ghist : BitVec 12 := 0#12
  sb : List SbEntry := []
  meter : Meter := {}
  hstk : List HandlerKind := []
  trk : Tracker := {}
  pair : Option PairRec := none
  heldK : List Interrupted := []
  heldM : Interrupted := {}
  iqTail : BitVec 5 := 0#5
  iqDrop : Bool := false
  bps : Tbl DebugPoint := []
  wps : Tbl DebugPoint := []
  dpc : Addr := 0#48
  dnpc : Addr := 0#48
  stepLeft : Nat := 0
  haltAsked : Bool := false
  dbgCause : Nat := 0
  skipDbg : Bool := false
  skipWp : Bool := false
  perf : Tbl PerfCtr := []
  pmcDue : Option Nat := none
  issuedIn : BitVec 2 := 0#2
  deriving DecidableEq, Repr

end Sys2Proof.Machine
end

