-- ==== Sys2Proof/Machine/Flags.lean ====
section
/-! DEFINITION. Fitting an exact result to its destination and the flags that go with it (R24, R26, R30, R31, R37 to
R54): every flag computation of the scalar instructions, as functions of operands and flags. -/
namespace Sys2Proof.Machine

/-- SW as a word (R123). -/
def Flags.toWord (f : Flags) : Word :=
  BitVec.ofNat 16 (f.c.toNat + 2 * f.v.toNat + 4 * f.z.toNat + 8 * f.n.toNat + 16 * f.so.toNat + 32 * f.sat.toNat)

/-- The flags an explicit write of SW leaves (R152: bits 5:0). -/
def Flags.ofWord (w : Word) : Flags :=
  { c := w.getLsbD 0, v := w.getLsbD 1, z := w.getLsbD 2, n := w.getLsbD 3, so := w.getLsbD 4, sat := w.getLsbD 5 }

/-- MW as a word (R123). -/
def ModeWord.toWord (m : ModeWord) : Word :=
  BitVec.ofNat 16 (m.rnd.toNat + 8 * m.wrap.toNat + 16 * m.dzt.toNat + 32 * m.lpe.toNat + 64 * m.lps.toNat)

/-- The mode word an explicit write leaves (R152: bits 7:0). -/
def ModeWord.ofWord (w : Word) : ModeWord :=
  { rnd := w.extractLsb' 0 3, wrap := w.getLsbD 3, dzt := w.getLsbD 4, lpe := w.getLsbD 5, lps := w.extractLsb' 6 2 }

/-- Does the suffix, with MW.OVF, select saturation (R24)? -/
def saturates (x : Sfx) (m : ModeWord) : Bool :=
  match x with
  | .mw => !m.wrap
  | .s => true
  | .w => false

/-- V, Z and N from a written value; C, SO and SAT unchanged (R26). -/
def Flags.vzn {n : Nat} (f : Flags) (v : Bool) (r : BitVec n) : Flags :=
  { f with v := v, z := r == 0, n := r.msb }

/-- The sticky flags of a saturating instruction whose result was limited (R26). -/
def Flags.limited (f : Flags) (b : Bool) : Flags := { f with so := f.so || b, sat := f.sat || b }

/-- An exact result fitted to `n` bits, saturating or wrapping, with V, Z, N, SO and SAT (R24, R26). -/
def fit (n : Nat) (sat : Bool) (y : Int) (f : Flags) : BitVec n × Flags :=
  let v := y != satInt n y
  let r := BitVec.ofInt n (if sat then satInt n y else y)
  (r, (f.vzn v r).limited (v && sat))

/-- An unsigned wrapping sum: C and V from the carry out (R26, R153). -/
def addU (n : Nat) (a b : BitVec n) (f : Flags) : BitVec n × Flags :=
  let c := decide (a.toNat + b.toNat ≥ 2 ^ n)
  let r := a + b
  (r, { f.vzn c r with c := c })

/-- An unsigned wrapping difference: C is 1 for no borrow, V its complement (R26, R153). -/
def subU (n : Nat) (a b : BitVec n) (f : Flags) : BitVec n × Flags :=
  let c := decide (a.toNat ≥ b.toNat)
  let r := a - b
  (r, { f.vzn (!c) r with c := c })

/-- CMP, LCMP: C unsigned, V, Z and N as the wrapping subtraction; SO and SAT unchanged (R28, R154). -/
def cmpS (n : Nat) (a b : BitVec n) (f : Flags) : Flags :=
  let y := a.toInt - b.toInt
  let r := a - b
  { f.vzn (y != satInt n y) r with c := decide (a.toNat ≥ b.toNat) }

/-- CMPU: C, Z and N as SUBU, V clear (R28). -/
def cmpU (n : Nat) (a b : BitVec n) (f : Flags) : Flags :=
  { f.vzn false (a - b) with c := decide (a.toNat ≥ b.toNat) }

/-- ABS, NEG and their long forms: the quiet limit of R52 under saturation, V under wrapping. -/
def quiet (n : Nat) (sat : Bool) (y : Int) (f : Flags) : BitVec n × Flags :=
  let ovr := y != satInt n y
  let r := BitVec.ofInt n (if sat then satInt n y else y)
  let g := f.vzn (ovr && !sat) r
  (r, { g with sat := g.sat || (ovr && sat) })

/-- A result that always fits: Z and N from it, V clear. -/
def plain {n : Nat} (r : BitVec n) (f : Flags) : BitVec n × Flags := (r, f.vzn false r)

/-- floor(a × 2^n) for a signed count n (R47). -/
def shiftExact (a n : Int) : Int :=
  if n ≥ 0 then a * 2 ^ n.toNat else Int.fdiv a (2 ^ (-n).toNat)

/-- SHRR and LSHRR: floor(a × 2^-n + 1/2) for n ≥ 1, else the left shift by −n (R48). -/
def shiftRound (a n : Int) : Int :=
  if n ≥ 1 then Int.fdiv (a + 2 ^ (n.toNat - 1)) (2 ^ n.toNat) else shiftExact a (-n)

/-- Logical left shift by an unsigned count: C the last bit shifted out (R49). -/
def lsl (n : Nat) (a : BitVec n) (c : Nat) (f : Flags) : BitVec n × Flags :=
  let r := a <<< c
  (r, { f.vzn false r with c := decide (1 ≤ c) && decide (c ≤ n) && a.getLsbD (n - c) })

/-- Logical right shift by an unsigned count: C the last bit shifted out (R49). -/
def lsr (n : Nat) (a : BitVec n) (c : Nat) (f : Flags) : BitVec n × Flags :=
  let r := a >>> c
  (r, { f.vzn false r with c := decide (1 ≤ c) && decide (c ≤ n) && a.getLsbD (c - 1) })

/-- How many places a nonzero value may be doubled and still fit, searched down from `k` (R51). -/
def normFrom (n : Nat) (a : Int) : Nat → Nat
  | 0 => 0
  | k + 1 => if a * 2 ^ (k + 1) = satInt n (a * 2 ^ (k + 1)) then k + 1 else normFrom n a k

/-- NORM and LNORM (R51). -/
def norm (n : Nat) (a : Int) : Nat := if a = 0 then 0 else normFrom n a (n - 1)

/-- A value narrowed by R30: source x, shift s, width n, mode code, residue. Answers result, flags and next residue. -/
def narrow (n : Nat) (x : Int) (s : Nat) (mode : BitVec 3) (sat : Bool) (e : Word) (f : Flags) :
    BitVec n × Flags × Word :=
  let d : Int := 2 ^ s
  let halfUp : Int := Int.fdiv (2 * x + d) (2 * d)
  let t : Int := Int.fdiv (x * 65536) d + e.toInt
  let y : Int :=
    match mode.toNat with
    | 0 => Int.fdiv x d
    | 1 => Int.tdiv x d
    | 2 => halfUp
    | 3 => if 2 * halfUp * d = 2 * x + d ∧ halfUp % 2 = 1 then halfUp - 1 else halfUp
    | 4 => if x ≥ 0 then halfUp else -(Int.fdiv (d - 2 * x) (2 * d))
    | _ => Int.fdiv (t + 32768) 65536
  let ovr := y != satInt n y
  let r := fit n sat y f
  let e' : Word :=
    if mode = 5#3 then (if ovr && sat then 0#16 else BitVec.ofInt 16 (t - 65536 * Int.fdiv (t + 32768) 65536)) else e
  (r.1, r.2, e')

/-- MULF: 2ab into a long (R37). -/
def mulf (sat : Bool) (a b : Word) (f : Flags) : Long × Flags := fit 32 sat (2 * a.toInt * b.toInt) f

/-- LMAC (`g` = 1) and LMSU (`g` = −1), R37: under .s each stage saturates; under .w the exact sum wraps and
V is set when either exact stage leaves the range. -/
def lmac (sat : Bool) (g : Int) (l : Long) (a b : Word) (f : Flags) : Long × Flags :=
  let p : Int := 2 * a.toInt * b.toInt
  let p' : Int := if sat then satInt 32 p else p
  let y : Int := l.toInt + g * p'
  let v := (p != satInt 32 p) || (y != satInt 32 y)
  let r := BitVec.ofInt 32 (if sat then satInt 32 y else y)
  (r, (f.vzn v r).limited (v && sat))

/-- MACR and MSUR (R37): the saturated long rounded to its high word; Z and N from the word. -/
def macr (g : Int) (l : Long) (a b : Word) (f : Flags) : Word × Flags :=
  let p : Int := 2 * a.toInt * b.toInt
  let y : Int := l.toInt + g * satInt 32 p
  let z : Int := Int.fdiv (satInt 32 y + 32768) 65536
  let v := (p != satInt 32 p) || (y != satInt 32 y) || (z != satInt 16 z)
  let r : Word := BitVec.ofInt 16 (satInt 16 z)
  (r, (f.vzn v r).limited v)

/-- LADDC (R54) with the carry taken from the flags given. -/
def laddc (a b : Long) (f : Flags) : Long × Flags :=
  let x := a.toInt
  let y := b.toInt
  let test := (a + b).toInt
  let r := a + b + (if f.c then 1#32 else 0#32)
  let base : Bool × Bool :=
    if x > 0 ∧ y > 0 ∧ test < 0 then (true, false)
    else if x < 0 ∧ y < 0 then (decide (test ≥ 0), true)
    else if (a ^^^ b).toInt < 0 ∧ test ≥ 0 then (false, true)
    else (false, false)
  let ov := if f.c && (test == 2147483647) then true else base.1
  let cy := if f.c && (test != 2147483647) && (test == -1) then true else base.2
  (r, { f.vzn ov r with so := ov, c := cy })

/-- LSUBC (R54). -/
def lsubc (a b : Long) (f : Flags) : Long × Flags :=
  let x := a.toInt
  let y := b.toInt
  if f.c then
    if b ≠ 0x80000000#32 then laddc a (-b) { f with c := false }
    else
      let r := a - b
      let so := f.so || decide (x > 0)
      (r, { f.vzn so r with so := so, c := false })
  else
    let r := a - b - 1#32
    let test := (a - b).toInt
    let base : Bool × Bool :=
      if test < 0 ∧ x > 0 ∧ y < 0 then (true, false)
      else if test > 0 ∧ x < 0 ∧ y > 0 then (true, true)
      else if test > 0 ∧ (a ^^^ b).toInt > 0 then (false, true)
      else (f.so, false)
    let so := base.1 || (test == -2147483648)
    (r, { f.vzn so r with so := so, c := base.2 })

/-- LSAT (R54). -/
def lsat (a : Long) (f : Flags) : Long × Flags :=
  if f.so then
    let r : Long := if f.c then 0x80000000#32 else 0x7FFFFFFF#32
    (r, { f.vzn false r with c := false, so := false, sat := true })
  else (a, f.vzn false a)

/-- Rod accumulation (R38): exact modulo 2^80, V and SO when the exact result leaves the range. -/
def rodAdd (k : Rod) (y : Int) (f : Flags) : Rod × Flags :=
  let x := k.toInt + y
  let v := x != satInt 80 x
  let r := BitVec.ofInt 80 x
  let g := f.vzn v r
  (r, { g with so := g.so || v })

/-- A signed divide (R42, R44): quotient, remainder, flags. -/
def divS (a b : Int) (f : Flags) : Word × Word × Flags :=
  if b = 0 then
    let q : Word := if a ≥ 0 then 0x7FFF#16 else 0x8000#16
    (q, 0#16, (f.vzn true q).limited true)
  else
    let q := Int.tdiv a b
    let r := fit 16 true q f
    (r.1, BitVec.ofInt 16 (a - q * b), r.2)

/-- An unsigned divide (R43, R44). -/
def divU (a b : Nat) (f : Flags) : Word × Word × Flags :=
  if b = 0 then (0xFFFF#16, 0#16, (f.vzn true 0xFFFF#16).limited true)
  else
    let q := a / b
    let v := decide (q ≥ 65536)
    let r : Word := BitVec.ofNat 16 (if v then 65535 else q)
    (r, BitVec.ofNat 16 (a % b), (f.vzn v r).limited v)

/-- DIVQ (R45). -/
def divQ (a b : Int) (f : Flags) : Word × Flags :=
  if b = 0 then
    let q : Word := if a ≥ 0 then 0x7FFF#16 else 0x8000#16
    (q, (f.vzn true q).limited true)
  else if a = b then
    (0x7FFF#16, { f.vzn false 0x7FFF#16 with sat := true })
  else fit 16 true (Int.tdiv (a * 32768) b) f

end Sys2Proof.Machine
end

