-- ==== Sys2Proof/Config.lean ====
section
/-! DEFINITION. What the spec leaves open: free values, and what an image, the fuses, the flash and the PCI Express configuration space hold.
Every one is opaque, so that no value of it can be proved. (DESIGN CHOICE, log 6) -/
namespace Sys2Proof.Config

/-- A free 16-bit value: the n-th one the machine draws. -/
opaque freeWord : Nat → Word
/-- A free 48-bit value. -/
opaque freeAddr : Nat → Addr
/-- A free count. -/
opaque freeNat : Nat → Nat
/-- A free yes or no. -/
opaque freeBool : Nat → Bool

/-- The octets an image piece, once parsed, gives for a setting it holds: the spec names the settings of *What the image
sets* (R429) and gives no layout of a piece. -/
opaque pieceField : List Byte → Nat → Nat
/-- A fuse of the device (R426, R483): words 0 to 3 the serial number, 4 the grade, 5 the SVN minimum. -/
opaque fuse : Nat → Word
/-- How many bytes the configuration flash has above 512 Mbit, as its SFDP table reports (R422). -/
opaque flashMore : Nat
/-- The size of the configuration flash in bytes: 512 Mbit to 4 Gbit (R422, R423). (PRESUMED, log 48) -/
def flashSize : Nat := 0x4000000 + flashMore % 0x1C000001
/-- The key hash held in the fuses (R426). -/
opaque fuseKeyHash : List Byte
/-- The hash of Usath's evaluation key, which alone a device with unprogrammed key fuses accepts (R426). -/
opaque evalKeyHash : List Byte
/-- Where the boot ROM's own firmware begins, which the stewards run in recovery (R430). -/
opaque romEntry : Addr
/-- The level of the TWIN_ROLE ball at always-on power-up (R503). -/
opaque smbStrap : Bool
/-- The key hash fuses are programmed (R426). -/
opaque keyFused : Bool
/-- The hash key of the classifier that the n-th generation makes (R228). -/
opaque hashKey : Nat → BitVec 128
/-- Free octets: the header fields of a reassembled datagram as punted (R226). -/
opaque freeOctets : Nat → List Byte

/-- Words of frame store that the descriptor chains of one coach take (R208, R266). -/
opaque chainWords : Nat

/-- A dword of PCI Express configuration space after reset (R285: PCI Express Base Specification 5.0). -/
opaque configReset : Nat → Long
/-- A dword of configuration space after a write: the dword's number, its value, the value written. -/
opaque configWrite : Nat → Long → Long → Long
/-- The dword of configuration space at which a capability begins: 0 PCI Express, 1 Power Management, 2 MSI-X, 3 Advanced Error
Reporting, 4 Device Serial Number, 5 ATS, 6 PASID. -/
opaque capDword : Nat → Nat

/-- What a word of memory that reads as uncorrectable gives where it is sent (R461). -/
opaque poisonWord : Nat → BitVec 16

end Sys2Proof.Config
end

