-- ==== Sys2Proof/Machine/State.lean ====
section
/-! DEFINITION. The state of the device, as plain data, and the state after reset. -/
namespace Sys2Proof.Machine

/-- Why a step stops in a fault. No command of this device stops so: exceptions of its engines, refusals of its
commands and its own checkstops are states of the device. The constructor is raised by no meaning. (safe) -/
inductive Fault where
  | none
  deriving DecidableEq, Repr

/-- Why a step is refused. -/
inductive Refusal where
  /-- Raised by the dispatcher for a command with no meaning yet; safe. -/
  | notModelled (mnemonic : String)
  deriving DecidableEq, Repr

/-- What the device holds of one frame besides its engines and memories: its power domain (R406), whether it is
powering up (R407), IK_FRAME.STATE (0 in service, 1 draining, 2 empty, 3 out of service; a frame is empty at reset), whether
it returns to service at the next round (R272), is drained for recalibration (R397) or leaves service when drained (R460),
and the instants of its corrected errors within the hour (R458). -/
structure FrameSt where
  powered : Bool := false
  poweringUp : Bool := false
  st : Nat := 2
  back : Bool := false
  recal : Bool := false
  recalWant : Bool := false
  retire : Bool := false
  corr : List Nat := []
  deriving DecidableEq, Repr

/-- What leaves the device, in order. -/
inductive Out where
  /-- Words written to host memory: the PASID of the request (0: none), the byte address, the translated pages where the
  request is a translated one (R292, R312). -/
  | hostWrite (pasid addr : Nat) (words : List Word) (via : List Nat)
  /-- Octets written to host memory. -/
  | hostOctets (pasid addr : Nat) (octets : List Byte) (via : List Nat)
  /-- A read of host memory for a ring, a block, an image or a frame. -/
  | hostRead (pasid addr bytes : Nat) (via : List Nat)
  /-- The read of a host-window load: the byte addresses of its words. -/
  | hostLoad (pasid : Nat) (addrs : List Nat) (via : List Nat)
  /-- A request for the translation of a page (R312). -/
  | translate (pasid page : Nat)
  /-- Bit k of a dirty bitmap set in host memory (R315). -/
  | dirtyBit (bitmap k : Nat) (via : List Nat)
  /-- The message of an MSI-X vector. -/
  | msix (vector : Nat)
  /-- A frame on a port's wire, from destination address to FCS. -/
  | frame (port : Nat) (octets : List Byte)
  /-- A Bozil link message (R371): its header's TYPE, LENGTH and MSEQ, contents in the order of its row. -/
  | link (type length mseq : Nat) (body : List Nat)
  /-- A COMMIT, with its LENGTH (R371). -/
  | commit (length : Nat) (c : Commit)
  /-- A STATE chunk, with its LENGTH (R371, R394). -/
  | state (length : Nat) (obj : StateObj)
  /-- A configuration request's answer (R287): Retry Status, or the value read. -/
  | config (retry : Bool) (value : Long)
  /-- The answer to a register read by the host: every register it covers (R289). -/
  | read (values : List Word)
  /-- A request of the host completed as an Unsupported Request (R289). -/
  | unsupported
  /-- An ATS Invalidation Completion (R313). -/
  | atsDone (itag : Nat)
  /-- A debug response (R467): status and data words. -/
  | debug (status : Nat) (data : List Word)
  /-- An SMBus answer (R503): the octets, the word's low one first, or NACK. -/
  | smbus (octets : Option (List Byte))
  /-- The data register a boundary-scan instruction puts between TDI and TDO, as the bits shifted out (R480). -/
  | scan (bits : List Bool)
  /-- An AVSBus Voltage write, in mV (R398). -/
  | avs (target : Nat)
  deriving DecidableEq, Repr

/-- A post on its way to a board (R71, R75). -/
structure Post where
  src : Nat
  board : Nat
  blk : Nat
  gen : Long
  inst : Nat
  period : Nat
  pad : Bool
  data : List Word
  deriving DecidableEq, Repr

/-- The instruction loaded in the test access port (R480). -/
inductive ScanInstr where
  | bypass | idcode | sample | extest | clamp | highz
  deriving DecidableEq, Repr

/-- Device time between edges, the increment, the comparators and the time pins (R319 to R345). -/
structure Clock where
  /-- How far the last interpolated reading stands past T (R321). -/
  phi : Nat := 0
  /-- The numerator residue R (R319). -/
  resid : Nat := 0
  /-- The increment in force: INT, NUM, DEN (R319, R320). -/
  inc : Nat × Nat × Nat := (7330077, 4861, 9375)
  /-- An increment committed and not yet in force (R320, R327). -/
  incNext : Option (Nat × Nat × Nat) := none
  /-- A time committed by NP_SET and not yet in force (R323). -/
  setNext : Option Nat := none
  /-- The global start is armed (R342). -/
  gsArmed : Bool := true
  /-- Frame timers (frame × 8 + t) that have fired in REACHED mode on device time, with the value matched, and to which the kernel has not
  yet answered (R265). -/
  fired : List (Nat × Nat) := []
  /-- Events since the last edge, by source (R341). -/
  tevents : Tbl Nat := []
  /-- The pin PPS_OUT, the instant of its last rise and its width (R334). -/
  ppsOut : Bool := false
  ppsAt : Nat := 0
  ppsWidth : Nat := 0
  deriving DecidableEq, Repr

/-- The snapshot of the performance counters (R364). -/
structure Snapshot where
  /-- Snapshot values of the counters and the stamps of their groups (R364). -/
  snap : Tbl Nat := []
  stamps : Tbl Nat := []
  /-- Those being taken, and the snapshot's start. -/
  snapNew : Tbl Nat := []
  stampsNew : Tbl Nat := []
  startNew : Nat := 0
  deriving DecidableEq, Repr

/-- The change journal (R443 to R450). -/
structure Journal where
  /-- The journal ring, newest entry first, and the twin copy (R443, R448). -/
  jring : List (List Word) := []
  jtwin : List (List Word) := []
  /-- The SEQ the next entry takes (R444, R447). -/
  jseq : Nat := 0
  /-- The journal region of the flash by entry place, and the write point (R446). -/
  nor : Tbl (List Word) := []
  norWp : Nat := 0
  /-- Lost slots and the like that the next start journals (R404, R420, R452). -/
  toJournal : List (Nat × Nat × Nat) := []
  /-- A steward checkstop's error record kept in the Night Porter (R452, R464). -/
  npRecord : Option (List Word) := none
  deriving DecidableEq, Repr

/-- The configuration flash, the pieces in service and the start in progress (R422 to R440). -/
structure Setup where
  /-- The boot header copies, and the flash slots by 4 KiB unit (slot × 65,536 + unit) (R423, R424). -/
  hdr : Tbl (List Word) := []
  flash : Tbl (List Byte) := []
  /-- Units of the staging slot written since BEGIN (R435). -/
  written : List Nat := []
  /-- The instant the staging erase began (R435). -/
  erasing : Option Nat := none
  /-- On a PRIMARY, the twin's BEGIN has the same outcome (R436). -/
  eraseSame : Bool := true
  /-- The version of the resident kernel each reckoner runs, and the instant from which a waybill changes it over (R437). -/
  kernels : Tbl Word := []
  kernelFrom : Nat := 0
  /-- The pieces in service by kind × 64 + index (R427, R428). -/
  active : Tbl Active := []
  /-- The active steward pairs in the order of their roles, once an activation has exchanged one (R437); none: those of the image. -/
  roles : List Nat := []
  /-- Activations whose instant has not come, or that have not completed (R437). -/
  acts : List PendAct := []
  /-- The fused SVN minimum as raised by CONFIRM (R439). -/
  svn : Nat := 0
  /-- Device time of the release of SYS_RESET_N that the running start counts from (R431). -/
  startAt : Nat := 0
  /-- The slot the device ran from at Night entry (R433). -/
  nightSlot : Nat := 0
  /-- The start's cause for its START entry (R444). -/
  startCause : Nat := 0
  /-- The image's port addresses, multicast addresses and control ports (R221, R224, R429). -/
  macs : Tbl Nat := []
  mcast : List Nat := []
  ctl : List CtlPort := []
  deriving DecidableEq, Repr

/-- Programs, coaches, best-effort jobs and the grids (R255 to R279). -/
structure Innkeeper where
  /-- Programs by instance × 2,048 + index (R305). -/
  progs : Tbl Prog := []
  /-- Coaches by number (R258). -/
  coaches : Tbl Coach := []
  /-- Coach numbers not to be reused before a device time (R258). -/
  resting : Tbl Nat := []
  /-- Best-effort jobs waiting or issued, in submission order, the next job's number, the last tag issued (R277). -/
  bejobs : List BeJob := []
  beNext : Nat := 0
  beTag : Tag := {}
  /-- The round last begun and the 2.5 ms grid boundary last begun (R255, R257). -/
  round : Nat := 0
  grid : Nat := 0
  /-- The placement policy in force is SPREAD (R257, R269). -/
  spread : Bool := false
  /-- Boards being released, with the boundary after which they are free (R80). -/
  releasing : Tbl Nat := []
  /-- Reckoners whose next transfer takes the odd one of their two courier channels (R208). -/
  turns : Tbl Bool := []
  deriving DecidableEq, Repr

/-- Streams, keys, contexts, the departure board and the buffers (R219 to R251). -/
structure Gatehouse where
  /-- Streams, contexts and the classifier (R228, R232, R235): key slots of table t, bucket b, slot k at
  (t × 131,072 + b) × 4 + k, the stash, the hash keys' free-value numbers of the two tables. -/
  streams : Tbl Stream := []
  srtp : Tbl Srtp := []
  keys : Tbl (Option KeySlot) := []
  stash : List KeySlot := []
  hashA : Nat := 0
  hashB : Nat := 0
  /-- When the last re-key that the device started itself began (R229, R230). -/
  rekeySelf : Option Nat := none
  /-- The running re-key was requested by the manager (R229). -/
  rekeyAsked : Bool := false
  /-- Policing counts by stream × 4 + leg + 2 × egress (R233). -/
  police : Tbl Police := []
  /-- Datagrams under reassembly (R226). -/
  reasm : List Reasm := []
  /-- The departure board, the next arrival number, the frames that wait for their ports, the ports sending, and the
  frames kept (R246 to R249, R389). -/
  board : List Dep := []
  depNext : Nat := 0
  waiting : List Ready := []
  portBusy : Tbl Bool := []
  kept : List Kept := []
  /-- Frames held in the standby buffer (R379). -/
  standby : List Standby := []
  /-- The ingress stamp of the last Pdelay_Req of each port, and the source and sequence number with the ingress stamp of its last
  Sync (R223, R331). -/
  pdelay : Tbl Nat := []
  syncIn : Tbl (Option (Nat × Nat)) := []
  deriving DecidableEq, Repr

/-- The ledger ring and the minutes closed (R350 to R354). -/
structure Tally where
  /-- The ledger ring: base, SIZE_LOG2, enabled (R353), and minutes closed (R350). -/
  lrBase : Nat := 0
  lrLog2 : Nat := 0
  lrOn : Bool := false
  minute : Nat := 0
  /-- Records of removed instances still to be written, each with the GAP it is due (R354, R355). -/
  lrOrphans : List (List Word × Bool) := []
  deriving DecidableEq, Repr

/-- A cached translation (R312): the instance, its page, the page it is translated to. -/
structure AtsEntry where
  inst : Nat
  page : Nat
  target : Nat
  deriving DecidableEq, Repr

/-- An ATS Invalidation Request not completed (R313): its tag, the instance and the pages it names, and the engines whose host-window
loads used an entry it dropped. -/
structure Inval where
  itag : Nat
  inst : Nat
  page : Nat
  pages : Nat
  loads : List Nat
  deriving DecidableEq, Repr

/-- The PCI Express function (R285 to R290, R301, R312, R318). -/
structure Function where
  /-- D3hot; Bus Master Enable, MSI-X Enable and Function Mask (R285, R287). -/
  d3hot : Bool := false
  busMaster : Bool := false
  msixOn : Bool := false
  msixMask : Bool := false
  /-- ATS enabled, cached translations, invalidations that wait, configuration space by dword, PERST_N low (R285, R287, R312, R313). -/
  atsOn : Bool := false
  ats : List AtsEntry := []
  invals : List Inval := []
  config : Tbl (Option Long) := []
  perstLow : Bool := false
  /-- The Uncorrectable and Correctable Error Status of Advanced Error Reporting (R318). -/
  aerUnc : Long := 0#32
  aerCor : Long := 0#32
  /-- The ring the last command was read from (R301), and whether the completions of a twin lost are to be written again once the
  function is in D0 (R287, R391). -/
  lastRing : Nat := 511
  rewrite : Bool := false
  /-- Words held in the agents' group shadows, and words latched there (R290). -/
  held : Tbl (Option Word) := []
  latched : Tbl (Option Word) := []
  deriving DecidableEq, Repr

/-- The twin pair: the link's stream, the peer, digests, fencing (R366 to R394). -/
structure Twin where
  /-- Twin: MSEQ of the last message sent and applied, the twin as last heard of, digests formed and digests received, the
  instants of unexplained differences, the handover instant, the last FRAME's stamp (R371 to R394). -/
  mseqTx : Nat := 0
  mseqRx : Option Nat := none
  peer : Peer := {}
  digests : List Digest := []
  twinDigests : List Digest := []
  ledgerWait : Tbl (Option (Nat × List Word)) := []
  ledgerTwin : Tbl (Option LedgerMsg) := []
  unexpl : List Nat := []
  handover : Option Nat := none
  lastFrame : Nat := 0
  lastCut : Nat := 0
  helloAt : Nat := 0
  hello : Option Hello := none
  pairRetryAt : Option Nat := none
  lastCpl : Tbl (Option (Nat × List Word)) := []
  lastTag : Word := 0#16
  /-- Mirroring is held for lanes too few (R373); the device was named to lead the pair (R367); the twin's resync is being served
  (R394); when BEAT and TIME were last sent, and the last TIME's arrival (R371, R380); records adopted at the next close (R385). -/
  mirrorHold : Bool := false
  paired : Bool := false
  resync : Resync := .idle
  beatAt : Nat := 0
  timeTx : Option Nat := none
  timeRx : Nat := 0
  adopt : Tbl (Option Adopt) := []
  /-- Fencing (R386, R452): the last KICK accepted, heartbeat stopped, egress gate closed, board in SHADOW,
  KICK ignored, fenced since the last start; the level of TWIN_HB_OUT and when it last changed. -/
  kickAt : Nat := 0
  hbOut : Bool := false
  hbAt : Nat := 0
  hbStopped : Bool := true
  gateClosed : Bool := true
  shadow : Bool := false
  kickOff : Bool := false
  fenced : Bool := false
  deriving DecidableEq, Repr

/-- The pace governor, the device state, the Night Porter's pins and the debug and scan ports (R395 to R421, R466 to R480). -/
structure Power where
  /-- Governor: when the present stage began, since when the return condition has held, the last interval, the last
  recalibration and its next frame (R397, R400, R401). -/
  stageAt : Nat := 0
  calmAt : Option Nat := none
  intervalAt : Nat := 0
  recalAt : Nat := 0
  recalNext : Nat := 0
  /-- Device state: wake controller, when its stage began, DRAM powered in self-refresh, sensor 3 in Night (R409 to R417). -/
  wake : WakeSt := .off
  wakeAt : Nat := 0
  dramKept : Bool := false
  sensor3 : Option Int := none
  retAt : Nat := 0
  /-- Sensor 3 has a reading (R417); pairs whose KICK wake stage 3 awaits (R414); steward memories to be journaled as copied from the
  partner's: the slot that holds the copy and the bank it went to (R421). -/
  sensed : Bool := false
  wakeKicks : List Nat := []
  repairs : List (Nat × Nat) := []
  /-- Pins: VCORE_EN, and the always-on power-up after which it is still to rise; SYS_RESET_N low, TWIN_ROLE as sampled (R367, R493). -/
  vcoreEn : Bool := false
  vcoreAt : Option Nat := some 0
  resetLow : Bool := true
  twinRole : Bool := false
  /-- Debug port: the engine selected, and the engine whose halt the present command waits for (R467). -/
  dbgSel : Option Nat := none
  dbgWait : Option Nat := none
  dbgWaitAt : Nat := 0
  /-- Boundary scan: the instruction, whether the balls were taken since the last restart, the boundary register (R480). -/
  scan : ScanInstr := .idcode
  scanTaken : Bool := false
  boundary : List Bool := []
  /-- POWER_STATE FULL or PARK awaits its round (R410); steward pairs whose compare points ignore differences (R473). -/
  fullAsked : Bool := false
  parkAsked : Bool := false
  unchecked : Tbl Bool := []
  deriving DecidableEq, Repr

/-- The device. -/
structure State where
  /-- The commands waiting, first in, first out (the model's own). -/
  pending : List Instr := []
  /-- Free values drawn so far (the model's own). -/
  fv : Nat := 0
  /-- Device time T after the last edge (R319). -/
  time : Nat := 0
  /-- Device memory, canonical: an unlisted byte reads 0. -/
  mem : List Host.Cell := []
  /-- Words and groups that read as uncorrectable (R457, R462). -/
  bad : Tbl Bool := []
  /-- The engines: reckoners 0 to 191, steward pairs 192 to 195. -/
  eng : Tbl Engine := []
  /-- The 24 frames. -/
  frames : Tbl FrameSt := []
  /-- The stored registers: CSR space by word offset, the MSI-X table and PBA at BAR0 word offsets, portal n at
  0x2000000 + n × 0x8000 (R288, R294, R481). -/
  csr : Tbl Word := []
  /-- Performance counters outside the engines, by number (R358). -/
  cnt : Tbl PerfCtr := []
  /-- Board descriptors, their blocks by bank, and posts in flight (R70 to R76). -/
  boards : Tbl BoardDesc := []
  blocks : Tbl BoardBlock := []
  posts : List Post := []
  /-- The courier channels (frame × 16 + c) in a chain: the next descriptor's address (R208). -/
  cur : Tbl Nat := []
  /-- The instances (R291). -/
  inst : Tbl Inst := []
  /-- Device time between edges, the increment, the comparators and the time pins (R319 to R345). -/
  clk : Clock := {}
  /-- The snapshot of the performance counters (R364). -/
  sn : Snapshot := {}
  /-- The change journal (R443 to R450). -/
  jr : Journal := {}
  /-- The configuration flash, the pieces in service and the start in progress (R422 to R440). -/
  cf : Setup := {}
  /-- Programs, coaches, best-effort jobs and the grids (R255 to R279). -/
  ik : Innkeeper := {}
  /-- Streams, keys, contexts, the departure board and the buffers (R219 to R251). -/
  gh : Gatehouse := {}
  /-- The ledger ring and the minutes closed (R350 to R354). -/
  ty : Tally := {}
  /-- The PCI Express function (R285 to R290, R312). -/
  fn : Function := {}
  /-- The twin pair: the link's stream, the peer, digests, fencing (R366 to R394). -/
  tw : Twin := {}
  /-- The pace governor, the device state, the Night Porter's pins and the debug and scan ports (R395 to R421, R466 to R480). -/
  pw : Power := {}
  /-- Everything that has left the device, newest first. -/
  out : List Out := []
  deriving DecidableEq, Repr

/-- The registers whose reset value is not 0, by word offset: the nominal increment (R345), the width of PPS_OUT,
NP_PWR_EVT.AON_POR and NP_RET_TCEIL, the scrub interval, ST_CORR_LIMIT, and the identity block's fixed values (R481). (DESIGN CHOICE, log 4) -/
def resetRegs : Tbl Word :=
  [(0x000000, 0x0192#16), (0x000001, 0x4100#16), (0x000002, 0x0100#16), (0x000003, 0x1D5A#16), (0x000004, 0x0192#16),
   (0x00000C, 0x256B#16), (0x00000D, 0x0019#16),
   (0x010010, 0xD91D#16), (0x010011, 0x006F#16), (0x010012, 0x12FD#16), (0x010014, 0x249F#16),
   (0x010027, 0x0064#16), (0x010400, 0x0008#16), (0x010402, 0x0154#16),
   (0x108000, 0x0018#16), (0x380004, 0x0040#16)]

/-- The device right after power-on: the always-on domain has just powered up (R322), device time is 0, no other
domain is on, every register holds its reset value, no command waits. (DESIGN CHOICE, log 3; DESIGN CHOICE, log 4) -/
def State.reset : State := { csr := resetRegs }

end Sys2Proof.Machine
end

