-- ==== Sys2Proof/Machine/Table.lean ====
section
/-! DEFINITION. The operations of a sparse table: read a key, write a key keeping the canonical form, and the form itself. -/
namespace Sys2Proof

/-- The value a table lists for a key. -/
def tblFind {α : Type} : Tbl α → Nat → Option α
  | [], _ => none
  | (j, v) :: t, k => if j = k then some v else tblFind t k

/-- The value at a key, `d` where the key is not listed. -/
def tblGet {α : Type} (d : α) (t : Tbl α) (k : Nat) : α := (tblFind t k).getD d

/-- A table without a key. -/
def tblDrop {α : Type} : Tbl α → Nat → Tbl α
  | [], _ => []
  | (j, v) :: t, k => if j = k then tblDrop t k else (j, v) :: tblDrop t k

/-- A pair put before the first larger key. -/
def tblInsert {α : Type} : Tbl α → Nat → α → Tbl α
  | [], k, v => [(k, v)]
  | (j, w) :: t, k, v => if k < j then (k, v) :: (j, w) :: t else (j, w) :: tblInsert t k v

/-- The table with `v` at `k`: an entry equal to the default is not listed. -/
def tblSet {α : Type} [DecidableEq α] (d : α) (t : Tbl α) (k : Nat) (v : α) : Tbl α :=
  if v = d then tblDrop t k else tblInsert (tblDrop t k) k v

/-- The canonical form: keys strictly rising and no listed value equal to the default. -/
def tblWf {α : Type} [DecidableEq α] (d : α) : Tbl α → Bool
  | [] => true
  | [(_, v)] => decide (v ≠ d)
  | (j, v) :: (k, w) :: t => decide (v ≠ d) && decide (j < k) && tblWf d ((k, w) :: t)

end Sys2Proof
end

