-- ==== Sys2Proof/Machine/Mem.lean ====
section
/-! DEFINITION. The physical memories: the map's regions (R191, R192), what backs them (R190, R212, R213), reading and
writing words of them, and the marks of uncorrectable words and poisoned groups (R457, R462). -/
namespace Sys2Proof.Machine

/-! ### Bytes and words -/

/-- A byte of device memory; a byte nothing has written reads 0 (R407 zero-fills the frames; elsewhere a choice). (DESIGN CHOICE, log 5) -/
def memByte (m : List Host.Cell) (a : Nat) : Byte := tblGet 0#8 m a

/-- The memory with a byte written. -/
def setByte (m : List Host.Cell) (a : Nat) (b : Byte) : List Host.Cell := tblSet 0#8 m a b

/-- The memory's canonical form: addresses strictly rising and no entry equal to what an unlisted byte reads as. (DESIGN CHOICE, log 5) -/
abbrev Memory.wf (m : List Host.Cell) : Bool := tblWf 0#8 m

/-- Word x: bytes 2x and 2x + 1, little-endian (R4). -/
def memWord (m : List Host.Cell) (x : Nat) : Word := memByte m (2 * x + 1) ++ memByte m (2 * x)

/-- The memory with word x written. -/
def setWord (m : List Host.Cell) (x : Nat) (w : Word) : List Host.Cell :=
  setByte (setByte m (2 * x) (w.extractLsb' 0 8)) (2 * x + 1) (w.extractLsb' 8 8)

/-- Consecutive words. -/
def memWords (m : List Host.Cell) (x : Nat) : Nat → List Word
  | 0 => []
  | n + 1 => memWord m x :: memWords m (x + 1) n

/-- Consecutive words written, lowest first. -/
def setWords (m : List Host.Cell) (x : Nat) : List Word → List Host.Cell
  | [] => m
  | w :: ws => setWords (setWord m x w) (x + 1) ws

/-! ### The physical map -/

/-- The regions of the physical map (R191); a frame, reckoner or steward by its number. -/
inductive Region where
  | dram
  | frame (f : Nat)
  | loc (r : Nat)
  | stew (k : Nat)
  | board
  | csr
  | host
  | none
  deriving DecidableEq, Repr

/-- An engine's own memory begins here in the global map (R192). A steward pair's own memory is copy A's (R454). -/
def ownBase (e : EngId) : Nat :=
  if e.val < 192 then 0x4800000000 + e.val * 0x20000 else 0x4E00000000 + (e.val - 192) * 0x80000

/-- A physical address with the own-local-store range, and copy B of a steward pair's memory, brought to the one
place that holds the words (R192, R454). (DESIGN CHOICE, log 9) -/
def canonPa (e : EngId) (pa : Nat) : Nat :=
  let own := if e.val < 192 then 0x20000 else 0x40000
  if 0x4F00000000 ≤ pa ∧ pa < 0x4F00000000 + own then ownBase e + (pa - 0x4F00000000)
  else if 0x4E00000000 ≤ pa ∧ pa < 0x4E00200000 ∧ (pa - 0x4E00000000) / 0x40000 % 2 = 1 then pa - 0x40000
  else pa

/-- The region of a canonical physical address. -/
def regionOf (pa : Nat) : Region :=
  if pa < 0x4000000000 then .dram
  else if pa < 0x4003000000 then .frame ((pa - 0x4000000000) / 0x200000)
  else if pa < 0x4800000000 then .none
  else if pa < 0x4801800000 then .loc ((pa - 0x4800000000) / 0x20000)
  else if pa < 0x4E00000000 then .none
  else if pa < 0x4E00200000 then .stew ((pa - 0x4E00000000) / 0x40000)
  else if pa < 0x5000000000 then .none
  else if pa < 0x5010000000 then .board
  else if pa < 0x6000000000 then .none
  else if pa < 0x6000400000 then .csr
  else if pa < 0x8000000000 then .none
  else if pa < 0x10000000000 then .host
  else .none

/-- Is the region a device region (R191)? -/
def Region.isDevice : Region → Bool
  | .board => true
  | .csr => true
  | .host => true
  | _ => false

/-- Is the region memory of the device? -/
def Region.isMemory : Region → Bool
  | .dram => true
  | .frame _ => true
  | .loc _ => true
  | .stew _ => true
  | _ => false

/-- Frame f has power (R190, R396). -/
def frameOn (s : State) (f : Nat) : Bool := (tblGet {} s.frames f).powered

/-- MC_CH_INFO.ROWS_LOG2 of a channel (R215); 0 when the channel is absent. -/
def rowsLog2 (s : State) (ch : Nat) : Nat := (tblGet 0#16 s.csr (0x100000 + ch * 0x1000)).toNat % 32

/-- The DRAM fields of a word address (R212): channel and row. -/
def dramChannel (x : Nat) : Nat := x / 65536 % 8
/-- The row of a DRAM word address. -/
def dramRow (x : Nat) : Nat := x / 524288
/-- The colour of a DRAM word address. -/
def dramColour (x : Nat) : Nat := x / 4096 % 128

/-- A DRAM word is backed: its channel is present and its row below the data rows (R213). -/
def dramBacked (s : State) (x : Nat) : Bool :=
  let n := rowsLog2 s (dramChannel x)
  decide (n ≠ 0) && decide (dramRow x < 7 * 2 ^ (n - 3))

/-- The Gatehouse region: the DRAM words PARAMS reserves, once loaded, which are no backed range for engines (R429, *Stream
entries*). Where it begins is the image's, like its size. -/
def inGatehouse (s : State) (x : Nat) : Bool :=
  match tblFind s.cf.active 64 with
  | some a =>
    let b := a.fields.getD 22 0
    decide (b ≤ x) && decide (x < b + a.fields.getD 5 0)
  | none => false

/-- A canonical physical address lies in a backed range (R190). -/
def backed (s : State) (pa : Nat) : Bool :=
  match regionOf pa with
  | .dram => dramBacked s pa && !inGatehouse s pa
  | .frame f => frameOn s f
  | .loc r => frameOn s (r / 8)
  | .stew _ => true
  | .board => true
  | .csr => true
  | .host => true
  | .none => false

/-! ### Uncorrectable words -/

/-- Where the mark of a word stands: DRAM is marked by its aligned 4-word group (R462). -/
def badKey (pa : Nat) : Nat := if pa < 0x4000000000 then pa / 4 * 4 else pa

/-- A read of this word reports it uncorrectable. -/
def isBad (s : State) (pa : Nat) : Bool := tblGet false s.bad (badKey pa)

/-- A write of n words at pa clears the marks it replaces: of each SRAM word, and of each DRAM group written whole. -/
def clearBad (b : Tbl Bool) (pa n : Nat) : Nat → Tbl Bool
  | 0 => b
  | k + 1 =>
    let x := pa + k
    let whole := decide (pa ≤ x / 4 * 4) && decide (x / 4 * 4 + 4 ≤ pa + n)
    let b' := if tblGet false b (badKey x) && (decide (0x4000000000 ≤ x) || whole) then tblSet false b (badKey x) false else b
    clearBad b' pa n k

/-- Words written to the device's memory. -/
def State.writeMem (s : State) (pa : Nat) (ws : List Word) : State :=
  { s with mem := setWords s.mem pa ws, bad := clearBad s.bad pa ws.length ws.length }

/-- A word of the device's memory. -/
def State.readMem (s : State) (pa : Nat) : Word := memWord s.mem pa

/-- A group or word marked uncorrectable. (DEDUCED, log 32) -/
def State.markBad (s : State) (pa : Nat) : State := { s with bad := tblSet false s.bad (badKey pa) true }

/-! ### Engines in the state -/

/-- The state of an engine. -/
def State.engAt (s : State) (e : EngId) : Engine := tblGet {} s.eng e.val

/-- The device with an engine's state replaced. -/
def State.setEng (s : State) (e : EngId) (x : Engine) : State := { s with eng := tblSet {} s.eng e.val x }

/-- An engine is a reckoner, not a steward pair. -/
def isReckoner (e : EngId) : Bool := decide (e.val < 192)

/-- The frame of a reckoner (R82). -/
def engFrame (e : EngId) : Nat := e.val / 8

/-- Reckoner r as an engine. -/
def reckoner (r : Nat) : EngId := ⟨r % 192, by omega⟩

/-- Steward pair p as an engine. (DESIGN CHOICE, log 9) -/
def stewardPair (p : Nat) : EngId := ⟨192 + p % 4, by omega⟩

/-- ENGID (R127, R454). -/
def engIdWord (e : EngId) : Word :=
  if isReckoner e then BitVec.ofNat 16 e.val else BitVec.ofNat 16 (0x8000 + 2 * (e.val - 192))

/-- The UNIT and SOURCE of an engine in an error record (R464): a reckoner by its number, a steward pair by its number. -/
def unitOf (e : EngId) : Nat × Nat := if isReckoner e then (0, e.val) else (1, e.val - 192)

/-- The engine's power domain is on: a reckoner's frame; the stewards' domain is the core supply's. -/
def engPowered (s : State) (e : EngId) : Bool := !isReckoner e || frameOn s (engFrame e)

/-! ### Free values -/

/-- The device with the free-value counter advanced past one draw. (DESIGN CHOICE, log 6) -/
def State.drawn (s : State) : State := { s with fv := s.fv + 1 }

end Sys2Proof.Machine
end

