-- ==== Sys2Proof/Machine/Dev.lean ====
section
/-! DEFINITION. What every unit uses: stored registers and their event bits, performance counters, and small list helpers. -/
namespace Sys2Proof.Machine

/-- A stored register. -/
def State.reg (s : State) (off : Nat) : Word := tblGet 0#16 s.csr off

/-- The device with a stored register replaced. -/
def State.setReg (s : State) (off : Nat) (w : Word) : State := { s with csr := tblSet 0#16 s.csr off w }

/-- The device with one bit of a stored register set (an event bit, R10). -/
def State.setBit (s : State) (off bit : Nat) : State := s.setReg off (s.reg off ||| (1#16 <<< bit))

/-- The device with one bit of a stored register cleared. -/
def State.clrBit (s : State) (off bit : Nat) : State := s.setReg off (s.reg off &&& ~~~(1#16 <<< bit))

/-- A bit of a stored register. -/
def State.bit (s : State) (off bit : Nat) : Bool := (s.reg off).getLsbD bit

/-- The device with one bit of a stored register given a value. -/
def State.putBit (s : State) (off bit : Nat) (b : Bool) : State := if b then s.setBit off bit else s.clrBit off bit

/-- A field of a word: `n` bits from `lo`. -/
def fld (w : Word) (lo n : Nat) : Nat := w.toNat / 2 ^ lo % 2 ^ n

/-- A word with a field replaced. -/
def putFld (w : Word) (lo n v : Nat) : Word :=
  BitVec.ofNat 16 (w.toNat - fld w lo n * 2 ^ lo + v % 2 ^ n * 2 ^ lo)

/-- A stored value of several words, lowest word at the lowest offset (R4). -/
def State.regs (s : State) (off : Nat) : Nat → Nat
  | 0 => 0
  | n + 1 => (s.reg off).toNat + 65536 * s.regs (off + 1) n

/-- The words of a value, lowest first. -/
def toWords (v : Nat) : Nat → List Word
  | 0 => []
  | n + 1 => BitVec.ofNat 16 v :: toWords (v / 65536) n

/-- The value of words, lowest first. -/
def ofWords : List Word → Nat
  | [] => 0
  | w :: ws => w.toNat + 65536 * ofWords ws

/-- Words stored in consecutive registers. -/
def State.setRegs (s : State) (off : Nat) : List Word → State
  | [] => s
  | w :: ws => (s.setReg off w).setRegs (off + 1) ws

/-- Word `i` of a list, 0 past its end. -/
def wordAt (l : List Word) (i : Nat) : Word := l.getD i 0#16

/-- Words `i` to `i + n − 1` of a list as one value, lowest first. -/
def wordsAt (l : List Word) (i n : Nat) : Nat := ofWords ((List.range n).map fun j => wordAt l (i + j))

/-- A list without repeats, each value where it stands last. -/
def noRepeats {α : Type} [BEq α] : List α → List α
  | [] => []
  | a :: l => if l.contains a then noRepeats l else a :: noRepeats l

/-- `n` events counted by one counter (R359): WRAP goes on modulo 2^48, SAT stops at the top, both set OVF. -/
def PerfCtr.add (c : PerfCtr) (n : Nat) : PerfCtr :=
  if !c.en then c
  else
    let v := c.val + n
    if v < 2 ^ 48 then { c with val := v }
    else if c.satMode then { c with val := 2 ^ 48 - 1, ovf := true }
    else { c with val := v % 2 ^ 48, ovf := true }

/-- The counter wraps on `n` events and samples, so it requests PMC (R362). -/
def PerfCtr.wraps (c : PerfCtr) (n : Nat) : Bool :=
  c.en && c.sample && !c.satMode && decide (2 ^ 48 ≤ c.val + n)

/-- `n` events at the counter of that number outside the engines (R358). -/
def State.count (s : State) (num n : Nat) : State :=
  { s with cnt := tblSet {} s.cnt num ((tblGet {} s.cnt num).add n) }

/-- Where the registers of a memory channel's counters begin (R358). (DESIGN CHOICE, log 120) -/
def mcCtr (ch : Nat) : Nat := 3072 + 8 * ch

/-- Inline ECC has detected an uncorrectable error in a DRAM word (R215): MC_CH_EVT.UNCORR, counted. -/
def State.mcUncorr (s : State) (pa : Nat) : State :=
  let ch := dramChannel pa
  (s.setBit (0x100001 + ch * 0x1000) 1).count (mcCtr ch + 5) 1

/-- PMC is enabled and unmasked, so that an interrupt of it is due within 6 instructions of a wrap (R362). -/
def Engine.pmcOpen (x : Engine) : Bool :=
  x.ctrl.imask.getLsbD 3 && x.psr.ie && !x.psr.hl && decide (x.psr.mode ≠ .machine)

/-- `n` events of a code at the engine's programmable counters (R360); a wrap requests PMC, due within 6 instructions where it
is open (R362). (DEDUCED, log 175) -/
def Engine.count (x : Engine) (keys : List Nat) (ev n : Nat) : Engine :=
  keys.foldl (fun y k =>
    let c := tblGet {} y.perf k
    if n ≠ 0 ∧ c.ev.toNat = ev then
      let i := if c.wraps n then y.ctrl.ipend ||| 8#16 else y.ctrl.ipend
      { y with perf := tblSet {} y.perf k (c.add n), ctrl := { y.ctrl with ipend := i }
               pmcDue := if c.wraps n && y.pmcOpen && y.pmcDue.isNone then some 6 else y.pmcDue }
    else y) x

/-- The programmable counters of a reckoner (4); of a steward pair, those of both copies (R358). -/
def perfKeys (e : EngId) : List Nat := if isReckoner e then [0, 1, 2, 3] else [0, 1, 2, 3, 4, 5, 6, 7]

/-- FR_BM_STATUS.HELD (R112). -/
def Engine.meterHeld (x : Engine) : Bool :=
  x.meter.running && (x.hstk.contains .intr || decide (x.run = .halted))

/-- An interrupt line requested at an engine (R146). -/
def Engine.request (x : Engine) (line : Nat) : Engine :=
  { x with ctrl := { x.ctrl with ipend := x.ctrl.ipend ||| (1#16 <<< line) } }

/-- Apply a change to one engine. -/
def State.modEng (s : State) (e : EngId) (f : Engine → Engine) : State := s.setEng e (f (s.engAt e))

/-- An engine that waits in WAIT goes on when a line it enables becomes pending (R169). (DEDUCED, log 26) -/
def Engine.wake (x : Engine) : Engine :=
  if x.run = .waiting ∧ x.ctrl.ipend &&& x.ctrl.imask ≠ 0#16 then { x with run := .running } else x

/-- A line requested at an engine: its bit of IPEND set, and a WAIT it ends ended (R114, R146, R169). -/
def State.requestLine (s : State) (e : EngId) (line : Nat) : State := s.modEng e fun x => (x.request line).wake

end Sys2Proof.Machine
end

