-- ==== Sys2Proof/Machine/Board.lean ====
section
/-! DEFINITION. The Counting Board (R69 to R81): expected counts, posts, closing, the window and its events. -/
namespace Sys2Proof.Machine

/-- Where a block of a bank is held. -/
def blockKey (board bank blk : Nat) : Nat := (board * 2 + bank) * 256 + blk

/-- A board's descriptor. -/
def State.board (s : State) (n : Nat) : BoardDesc := tblGet {} s.boards n

/-- A block of the bank that generation g uses (R72). (DESIGN CHOICE, log 24) -/
def State.block (s : State) (board blk : Nat) (g : Long) : BoardBlock :=
  tblGet {} s.blocks (blockKey board (g.toNat % 2) blk)

/-- Generation order modulo 2^32: `a` is not before `b`. (DEDUCED, log 23) -/
def genGe (a b : Long) : Bool := decide ((a - b).toInt ≥ 0)

/-- The expected count of generation g (R70, R78). -/
def BoardDesc.expected (d : BoardDesc) (g : Long) : Nat :=
  if genGe g d.switchGen then d.expectNext.toNat else d.expect.toNat

/-- A block is closed for generation g (R73). -/
def BoardBlock.closed (b : BoardBlock) (d : BoardDesc) (g : Long) : Bool :=
  decide (b.tag = g) && !b.poison && decide (b.count = d.expected g)

/-- An event of CB_EVT with its board (R81), counted in group 242 where that group has a counter for it (R358). -/
def State.cbEvent (s : State) (bit board : Nat) : State :=
  let s := (s.setBit 0x140001 bit).setReg 0x140002 (BitVec.ofNat 16 board)
  if bit = 5 then s.count 3155 1 else if bit = 4 then s.count 3156 1 else if bit = 3 then s.count 3157 1
  else if bit = 2 then s.count 3158 1 else if bit = 1 then s.count 3159 1 else s

/-- The block made ready for generation g: an old block is cleared on the first post of a new generation (R72). -/
def BoardBlock.forGen (b : BoardBlock) (g : Long) : BoardBlock := if b.tag = g then b else { tag := g }

/-- Sixteen samples added to the totals, sign-extended, exactly modulo 2^48 (R69, R72). -/
def BoardBlock.add (b : BoardBlock) (data : List Word) : BoardBlock :=
  { b with
    count := b.count + 1
    tot := (List.range 16).foldl (fun t i =>
      tblSet 0#48 t i (tblGet 0#48 t i + (wordAt data i).signExtend 48)) b.tot }

/-- A post reaches its board (R72, R73, R76). (DEDUCED, log 33; DEDUCED, log 75; DESIGN CHOICE, log 164) -/
def State.applyPost (s : State) (p : Post) : State :=
  let d := s.board p.board
  if !d.valid then s.cbEvent 0 p.board
  else if d.owner ≠ p.inst ∨ d.period ≠ p.period then s.cbEvent 3 p.board
  else
    let key := blockKey p.board (p.gen.toNat % 2) p.blk
    let b := (tblGet {} s.blocks key).forGen p.gen
    let put (s : State) (b : BoardBlock) : State := { s with blocks := tblSet {} s.blocks key b }
    if b.poison ∨ b.count = d.expected p.gen then
      let s := put s { b with poison := true }
      let s := if b.poison then s else s.count 3154 1
      if b.count = d.expected p.gen then s.cbEvent 2 p.board else s
    else
      let b := b.add p.data
      let s := (put s b).count 3152 1
      let s := s.count (2688 + 8 * d.home + 4) 1
      let s := if p.pad then s.count (2688 + 8 * d.home + 5) 1 else s
      if b.count = d.expected p.gen then s.count 3153 1 else s

/-- A word of the Counting Board window (R79): totals sign-extended to 64 bits, tags and counts; other words read 0. (DESIGN CHOICE, log 24) -/
def boardWindow (s : State) (x : Nat) : Word :=
  let board := x / 65536
  let o := x % 65536
  if o < 0x8000 then
    let bank := o / 0x4000
    let p := o % 0x4000 / 4
    let t := tblGet 0#48 (tblGet {} s.blocks (blockKey board bank (p / 16))).tot (p % 16)
    (t.signExtend 64).extractLsb' (16 * (o % 4)) 16
  else if o < 0x8400 then
    let bank := (o - 0x8000) / 0x200
    let j := (o - 0x8000) % 0x200 / 2
    let b := tblGet {} s.blocks (blockKey board bank j)
    if o % 2 = 0 then b.tag.extractLsb' 0 16 else BitVec.ofNat 16 b.count
  else 0#16

/-- CB_STATUS.OPEN_BOARDS (R81). -/
def State.openBoards (s : State) : Nat := (s.boards.filter fun x => x.2.valid).length

end Sys2Proof.Machine
end

