-- ==== Sys2Proof/Machine/Crypto.lean ====
section
/-! DEFINITION. The checks the spec names by their standards: SHA-256 (R352, R381, R445), CRC-32C (R370, R419, R424),
the Ethernet FCS (R221) and SipHash-2-4 (R228), over octets. -/
namespace Sys2Proof.Machine

/-! ### SHA-256 -/

/-- The 64 round constants. -/
def sha256K : List Long :=
  [0x428a2f98#32, 0x71374491#32, 0xb5c0fbcf#32, 0xe9b5dba5#32, 0x3956c25b#32, 0x59f111f1#32, 0x923f82a4#32, 0xab1c5ed5#32] ++
  [0xd807aa98#32, 0x12835b01#32, 0x243185be#32, 0x550c7dc3#32, 0x72be5d74#32, 0x80deb1fe#32, 0x9bdc06a7#32, 0xc19bf174#32] ++
  [0xe49b69c1#32, 0xefbe4786#32, 0x0fc19dc6#32, 0x240ca1cc#32, 0x2de92c6f#32, 0x4a7484aa#32, 0x5cb0a9dc#32, 0x76f988da#32] ++
  [0x983e5152#32, 0xa831c66d#32, 0xb00327c8#32, 0xbf597fc7#32, 0xc6e00bf3#32, 0xd5a79147#32, 0x06ca6351#32, 0x14292967#32] ++
  [0x27b70a85#32, 0x2e1b2138#32, 0x4d2c6dfc#32, 0x53380d13#32, 0x650a7354#32, 0x766a0abb#32, 0x81c2c92e#32, 0x92722c85#32] ++
  [0xa2bfe8a1#32, 0xa81a664b#32, 0xc24b8b70#32, 0xc76c51a3#32, 0xd192e819#32, 0xd6990624#32, 0xf40e3585#32, 0x106aa070#32] ++
  [0x19a4c116#32, 0x1e376c08#32, 0x2748774c#32, 0x34b0bcb5#32, 0x391c0cb3#32, 0x4ed8aa4a#32, 0x5b9cca4f#32, 0x682e6ff3#32] ++
  [0x748f82ee#32, 0x78a5636f#32, 0x84c87814#32, 0x8cc70208#32, 0x90befffa#32, 0xa4506ceb#32, 0xbef9a3f7#32, 0xc67178f2#32]

/-- The initial hash value. -/
def sha256H : List Long :=
  [0x6a09e667#32, 0xbb67ae85#32, 0x3c6ef372#32, 0xa54ff53a#32, 0x510e527f#32, 0x9b05688c#32, 0x1f83d9ab#32, 0x5be0cd19#32]

/-- Word n of a list of longs, 0 past its end. -/
def longAt (l : List Long) (n : Nat) : Long := l.getD n 0#32

/-- The message padded to whole 64-octet blocks: 0x80, zeros, the length in bits as 8 octets, high first. -/
def sha256Pad (m : List Byte) : List Byte :=
  let n := m.length
  let z := (119 - n % 64) % 64
  m ++ 0x80#8 :: List.replicate z 0#8 ++
    (List.range 8).map fun i => BitVec.ofNat 8 (8 * n / 2 ^ (8 * (7 - i)))

/-- Octets i to i + 3 as one long, high first. -/
def beLong (m : List Byte) (i : Nat) : Long :=
  m.getD i 0#8 ++ m.getD (i + 1) 0#8 ++ m.getD (i + 2) 0#8 ++ m.getD (i + 3) 0#8

/-- The message schedule, newest word first, extended by k words. -/
def sha256Sched (w : List Long) : Nat → List Long
  | 0 => w
  | k + 1 =>
    let a := longAt w 1
    let b := longAt w 14
    let s1 := a.rotateRight 17 ^^^ a.rotateRight 19 ^^^ (a >>> 10)
    let s0 := b.rotateRight 7 ^^^ b.rotateRight 18 ^^^ (b >>> 3)
    sha256Sched ((s1 + longAt w 6 + s0 + longAt w 15) :: w) k

/-- One round on the eight working variables. -/
def sha256Round (v : List Long) (kw : Long) : List Long :=
  match v with
  | [a, b, c, d, e, f, g, h] =>
    let s1 := e.rotateRight 6 ^^^ e.rotateRight 11 ^^^ e.rotateRight 25
    let ch := (e &&& f) ^^^ (~~~e &&& g)
    let t1 := h + s1 + ch + kw
    let s0 := a.rotateRight 2 ^^^ a.rotateRight 13 ^^^ a.rotateRight 22
    let mj := (a &&& b) ^^^ (a &&& c) ^^^ (b &&& c)
    [t1 + (s0 + mj), a, b, c, d + t1, e, f, g]
  | _ => v

/-- The hash value after one block, given as its 16 longs. -/
def sha256Block (hv : List Long) (blk : List Long) : List Long :=
  let w := (sha256Sched blk.reverse 48).reverse
  let v := (List.zipWith (fun k x => k + x) sha256K w).foldl sha256Round hv
  List.zipWith (fun a b => a + b) hv v

/-- Fold the blocks of a padded message. -/
def sha256Blocks (m : List Byte) : Nat → List Long
  | 0 => sha256H
  | k + 1 => sha256Block (sha256Blocks m k) ((List.range 16).map fun i => beLong m (64 * k + 4 * i))

/-- SHA-256 of octets: 32 octets. (PRESUMED, log 48) -/
def sha256 (m : List Byte) : List Byte :=
  let p := sha256Pad m
  (sha256Blocks p (p.length / 64)).flatMap fun x =>
    [x.extractLsb' 24 8, x.extractLsb' 16 8, x.extractLsb' 8 8, x.extractLsb' 0 8]

/-- Words as octets, each word low octet first (R120). -/
def wordsOctets (l : List Word) : List Byte := l.flatMap fun w => [w.extractLsb' 0 8, w.extractLsb' 8 8]

/-- Octets packed two to a word, low octet first, a last odd octet with high byte 0 (R120). -/
def octetsWords : List Byte → List Word
  | [] => []
  | [a] => [0#8 ++ a]
  | a :: b :: l => (b ++ a) :: octetsWords l

/-- The first 8 octets of SHA-256 over octets, as four words: octet 2i in the low byte of word i (R352, R445). -/
def sha256First8 (m : List Byte) : List Word := octetsWords ((sha256 m).take 8)

/-- A value as n octets, low octet first. -/
def leOctets (v n : Nat) : List Byte := (List.range n).map fun i => BitVec.ofNat 8 (v / 2 ^ (8 * i))

/-- A value as n octets, high octet first. -/
def beOctets (v n : Nat) : List Byte := (List.range n).map fun i => BitVec.ofNat 8 (v / 2 ^ (8 * (n - 1 - i)))

/-- Octets i to i + n − 1 as one value, high octet first. -/
def beNat (m : List Byte) (i n : Nat) : Nat :=
  ((m.drop i).take n).foldl (fun a b => 256 * a + b.toNat) 0

/-! ### Cyclic redundancy checks -/

/-- One bit of a reflected CRC with the given polynomial. -/
def crcBit (poly : Long) (c : Long) : Long := if c.getLsbD 0 then (c >>> 1) ^^^ poly else c >>> 1

/-- One octet of a reflected CRC. -/
def crcOctet (poly : Long) (c : Long) (b : Byte) : Long :=
  (List.range 8).foldl (fun x _ => crcBit poly x) (c ^^^ b.zeroExtend 32)

/-- A reflected CRC with initial value and final exclusive-or of all ones. (PRESUMED, log 48) -/
def crc32 (poly : Long) (m : List Byte) : Long := ~~~(m.foldl (crcOctet poly) 0xFFFFFFFF#32)

/-- CRC-32C (R370, R419, R424). (PRESUMED, log 48) -/
def crc32c (m : List Byte) : Long := crc32 0x82F63B78#32 m

/-- The frame check sequence of IEEE 802.3, as the value whose low octet is sent first. (PRESUMED, log 48) -/
def fcs32 (m : List Byte) : Long := crc32 0xEDB88320#32 m

/-! ### SipHash-2-4 (R228) -/

/-- One SipRound. -/
def sipRound (v : BitVec 64 × BitVec 64 × BitVec 64 × BitVec 64) : BitVec 64 × BitVec 64 × BitVec 64 × BitVec 64 :=
  let (v0, v1, v2, v3) := v
  let v0 := v0 + v1
  let v1 := v1.rotateLeft 13 ^^^ v0
  let v0 := v0.rotateLeft 32
  let v2 := v2 + v3
  let v3 := v3.rotateLeft 16 ^^^ v2
  let v0 := v0 + v3
  let v3 := v3.rotateLeft 21 ^^^ v0
  let v2 := v2 + v1
  let v1 := v1.rotateLeft 17 ^^^ v2
  let v2 := v2.rotateLeft 32
  (v0, v1, v2, v3)

/-- Absorb one 64-bit word. -/
def sipWord (v : BitVec 64 × BitVec 64 × BitVec 64 × BitVec 64) (m : BitVec 64) :
    BitVec 64 × BitVec 64 × BitVec 64 × BitVec 64 :=
  let r := sipRound (sipRound (v.1, v.2.1, v.2.2.1, v.2.2.2 ^^^ m))
  (r.1 ^^^ m, r.2)

/-- SipHash-2-4 of octets under a 128-bit key. (PRESUMED, log 48) -/
def sipHash (k : BitVec 128) (m : List Byte) : BitVec 64 :=
  let k0 := k.extractLsb' 0 64
  let k1 := k.extractLsb' 64 64
  let v := (k0 ^^^ 0x736f6d6570736575#64, k1 ^^^ 0x646f72616e646f6d#64,
    k0 ^^^ 0x6c7967656e657261#64, k1 ^^^ 0x7465646279746573#64)
  let n := m.length
  let full := (List.range (n / 8)).map fun i => BitVec.ofNat 64 (beNat ((m.drop (8 * i)).take 8).reverse 0 8)
  let tail := (m.drop (n / 8 * 8)).reverse
  let last := BitVec.ofNat 64 (n % 256 * 2 ^ 56 + beNat tail 0 tail.length)
  let v := (full ++ [last]).foldl sipWord v
  let v := (v.1, v.2.1, v.2.2.1 ^^^ 0xFF#64, v.2.2.2)
  let v := sipRound (sipRound (sipRound (sipRound v)))
  v.1 ^^^ v.2.1 ^^^ v.2.2.1 ^^^ v.2.2.2

end Sys2Proof.Machine
end

