-- ==== Sys2Proof/Machine/Log.lean ====
section
/-! DEFINITION. What every unit does beside its own work: reads device time (R321), enters the change journal (R443 to
R450), writes error records (R464), sends messages to the host and the twin. -/
namespace Sys2Proof.Machine

/-! ### Device time -/

/-- 96-bit unsigned wrap (R11). -/
def uwrap96 (t : Nat) : Nat := t % 2 ^ 96

/-- The nominal increment (R319). -/
def nominalInc : Nat × Nat × Nat := (7330077, 4861, 9375)

/-- The residue when DEN changes (R320). -/
def rescale (r dOld dNew : Nat) : Nat := if dOld = dNew then r else r * dNew / dOld

/-- What the next edge applies (R319, R320, R327): the increment, a committed one already, and the residue it starts from. -/
def State.nextInc (s : State) : (Nat × Nat × Nat) × Nat :=
  if s.bit 0x010018 10 then (nominalInc, s.clk.resid)
  else
    let i := s.clk.incNext.getD s.clk.inc
    (i, rescale s.clk.resid s.clk.inc.2.2 i.2.2)

/-- The increment the next edge applies, in whole units (R321). -/
def State.incUnits (s : State) : Nat :=
  let (i, r) := s.nextInc
  i.1 + (r + i.2.1) / i.2.2

/-- The latest reading of device time. -/
def State.now (s : State) : Nat := uwrap96 (s.time + s.clk.phi)

/-- A reading of device time between edges (R321): it lies before the next edge's count, and never before an earlier
reading; how much of the edge interval has passed is free. (DESIGN CHOICE, log 38) -/
def State.readTime (s : State) : Nat × State :=
  let p := s.clk.phi + Config.freeNat s.fv % (s.incUnits - s.clk.phi)
  let p := if s.incUnits ≤ s.clk.phi then s.clk.phi else p
  let s := { s with fv := s.fv + 1, clk := { s.clk with phi := p } }
  (s.now, s)

/-- How long after instant t0 instant t lies, in units; 0 where t lies before it. Device time wraps (R11). -/
def unitsSince (t0 t : Nat) : Nat :=
  let d := (t + 2 ^ 96 - t0 % 2 ^ 96) % 2 ^ 96
  if d < 2 ^ 95 then d else 0

/-- At least `us` microseconds lie between two instants. -/
def usPassed (t0 t us : Nat) : Bool := decide (us * 2 ^ 48 ≤ unitsSince t0 t * 1000000)

/-- Microseconds in device-time units, truncated (R261). -/
def usUnits (us : Nat) : Nat := us * 2 ^ 48 / 1000000

/-! ### What leaves the device -/

/-- SERVO written: a new value sets LOCK_CHG (R325, R345). -/
def State.setServo (s : State) (v : Nat) : State :=
  let w := putFld (s.reg 0x010018) 12 2 v
  if fld (s.reg 0x010018) 12 2 = v % 4 then s
  else (s.setReg 0x010018 w).setBit 0x010019 6

/-- Something leaves the device. -/
def State.send (s : State) (o : Out) : State := { s with out := o :: s.out }

/-- The device makes no requests of host memory (R285, R287): in D3hot, or while the host has not set Bus Master Enable. (PRESUMED, log 204) -/
def State.dmaOff (s : State) : Bool := s.fn.d3hot || !s.fn.busMaster

/-- A vector's message cannot be sent now (R285, R287, R317): it is masked, by its own mask bit or the function's, MSI-X is not enabled, or the
device makes no requests. The mask is bit 0 of word 6 of the vector's 8-word table entry, 1 after reset; that word is stored
inverted. (PRESUMED, log 204) -/
def State.msixHeld (s : State) (v : Nat) : Bool :=
  !s.bit (0x1000000 + v * 8 + 6) 0 || s.fn.msixMask || !s.fn.msixOn || s.dmaOff

/-- The message of an MSI-X vector (R317): sent, or its PBA bit set while it cannot be. -/
def State.msix (s : State) (v : Nat) : State :=
  if s.msixHeld v then s.setBit (0x1008000 + v / 16) (v % 16) else s.send (.msix v)

/-- A vector's waiting message sent, where it can be now (R317). -/
def State.msixSend (s : State) (v : Nat) : State :=
  if s.bit (0x1008000 + v / 16) (v % 16) && !s.msixHeld v then (s.clrBit (0x1008000 + v / 16) (v % 16)).send (.msix v) else s

/-- Every waiting message that can be sent now. -/
def State.msixFlush (s : State) : State := (List.range 2048).foldl (fun s v => s.msixSend v) s

/-- The vector of device events (R317). -/
def State.deviceEvent (s : State) : State := s.msix 1

/-! ### Stewards and lines -/

/-- TW_STATUS.ROLE: 0 SOLO, 1 PRIMARY, 2 SECONDARY, 3 SYNCING (R366). -/
def State.role (s : State) : Nat := fld (s.reg 0x0F0000) 14 2

/-- TW_STATUS.SYNC (R366). -/
def State.sync (s : State) : Bool := s.bit 0x0F0000 13

/-- The device releases media egress and reads host command rings (R366). -/
def State.leads (s : State) : Bool := decide (s.role ≤ 1)

/-- PARAMS, the piece in service of kind 1 (R427); none before it is loaded. -/
def State.params (s : State) (k : Nat) : Nat :=
  match tblFind s.cf.active 64 with
  | some a => a.fields.getD k 0
  | none => 0

/-- POLICY's settings (R427, R429). -/
def State.policy (s : State) (k : Nat) : Nat :=
  match tblFind s.cf.active (7 * 64) with
  | some a => a.fields.getD k 0
  | none => 0

/-- The active steward pairs in the order of their roles: the image's (R429), or as activations have exchanged them (R437); before PARAMS
is loaded pairs 0 and 1. (DEDUCED, log 47) -/
def State.activePairs (s : State) : List Nat :=
  if s.cf.roles ≠ [] then s.cf.roles
  else
    match tblFind s.cf.active 64 with
    | some a => (List.range 4).filter fun p => decide (a.fields.getD 20 0 / 2 ^ p % 2 = 1)
    | none => [0, 1]

/-- A steward pair is active. -/
def State.pairActive (s : State) (p : Nat) : Bool := s.activePairs.contains p

/-- The standby pairs: those the image names, and those an activation has exchanged out (R437), but one with a silent comparator (R456)
or one that the debug port has halted or written (R473). -/
def State.standbyPairs (s : State) : List Nat :=
  (List.range 4).filter fun p =>
    !s.pairActive p && decide ((s.params 13 / 2 ^ p % 2 = 1) ∨ (s.params 20 / 2 ^ p % 2 = 1)) &&
      decide (s.reg 0x380002 &&& (0xF#16 <<< (4 * p)) = 0#16) && !tblGet false s.pw.unchecked p

/-- A line requested on the stewards of the active pairs (R146, R338, R339). -/
def State.stewardLine (s : State) (line : Nat) : State :=
  [0, 1, 2, 3].foldl (fun s p => if s.pairActive p then s.requestLine (stewardPair p) line else s) s

/-! ### The change journal -/

/-- The code of a status (R297). -/
def Status.code : Status → Nat
  | .ok => 0
  | .pending => 1
  | .refusedCapacity => 2
  | .stateConflict => 3
  | .notPermitted => 4
  | .badArgument => 5
  | .instanceError => 6

/-- What an entry is about (R444): a register, a command, a piece or an event. -/
inductive Target where
  | csr (off : Nat)
  | command (op : Nat) (tag : Word)
  | piece (kind index : Nat)
  | event (code arg : Nat)
  deriving DecidableEq, Repr

/-- Words 7 and 8 of an entry (R444). -/
def Target.words : Target → List Word
  | .csr off => [BitVec.ofNat 16 (off / 65536 % 64), BitVec.ofNat 16 off]
  | .command op tag => [BitVec.ofNat 16 (0x1000 + op % 4096), tag]
  | .piece k i => [BitVec.ofNat 16 (0x2000 + k % 4096), BitVec.ofNat 16 i]
  | .event c a => [BitVec.ofNat 16 (0x3000 + c % 4096), BitVec.ofNat 16 a]

/-- An entry of the journal (R443). -/
structure JEntry where
  origin : Origin
  target : Target
  old : Word := 0#16
  new : Word := 0#16
  status : Status := .ok
  detail : Nat := 0
  cont : Bool := false
  deriving DecidableEq, Repr

/-- JR_STATUS.BACKLOG (R450). -/
def State.backlog (s : State) : Nat := fld (s.reg 0x038000) 0 15

/-- The LINK formed over an entry (R445): the first 8 octets of SHA-256 over its 32 octets. -/
def linkOf (e : List Word) : List Word := sha256First8 (wordsOctets e)

/-- The 16 words of an entry with its sequence number, device time and link (R444). -/
def JEntry.words (e : JEntry) (seq t : Nat) (link : List Word) : List Word :=
  toWords seq 2 ++ toWords (t / 65536) 4 ++
    [BitVec.ofNat 16 (e.origin.code * 8192 + e.origin.inst)] ++ e.target.words ++ [e.old, e.new] ++
    [BitVec.ofNat 16 (e.status.code * 256 + (if e.cont then 128 else 0) + e.detail % 128)] ++ link

/-- An entry of words put at the head of the ring (R446, R450): the ring keeps 16,384; one that replaces an unwritten entry
loses it; a BACKLOG that passes 8,192 requests JRNL (line 12 of R146). -/
def State.putEntry (s : State) (seq : Nat) (ws : List Word) : State :=
  let b := s.backlog
  let s := { s with jr := { s.jr with jring := (ws :: s.jr.jring).take 16384, jseq := (seq + 1) % 2 ^ 32 } }
  let s := s.setRegs 0x038002 (toWords seq 2)
  if b = 16384 then
    let lost := (s.reg 0x038006).toNat
    (s.setReg 0x038006 (BitVec.ofNat 16 (min 65535 (lost + 1)))).setBit 0x038001 0
  else
    let s := s.setReg 0x038000 (putFld (s.reg 0x038000) 0 15 (b + 1))
    if b = 8192 then (s.setBit 0x038001 2).stewardLine 12 else s

/-- A change, refusal or event entered in the journal in the act in which it takes effect (R443). -/
def State.journal (s : State) (e : JEntry) : State :=
  let (t, s) := s.readTime
  let link := match s.jr.jring with
    | p :: _ => linkOf p
    | [] => List.replicate 4 0#16
  s.putEntry s.jr.jseq (e.words s.jr.jseq t link)

/-- A new chain (R445, R447): CHAIN_RESET with SEQ 0 and LINK 0. -/
def State.chainReset (s : State) : State :=
  let (t, s) := s.readTime
  let e : JEntry := { origin := .boot, target := .event 3 0 }
  (s.putEntry 0 (e.words 0 t (List.replicate 4 0#16))).setBit 0x038001 3

/-- A value wider than 16 bits entered as one entry per word, lowest first, CONT on all but the last (R443). -/
def State.journalGroup (s : State) (o : Origin) (st : Status) (detail : Nat) : Nat → List (Word × Word) → State
  | _, [] => s
  | off, (a, b) :: l =>
    let e : JEntry :=
      { origin := o, target := .csr off, old := a, new := b, status := st, detail := detail, cont := decide (l ≠ []) }
    (s.journal e).journalGroup o st detail (off + 1) l

/-- An event of a register journaled under TKIND CSR, OLD 0 and NEW the bit's mask (R443). -/
def State.journalBit (s : State) (o : Origin) (off bit : Nat) : State :=
  s.journal { origin := o, target := .csr off, new := 1#16 <<< bit }

/-! ### Error records -/

/-- Advanced Error Reporting: bits of the Uncorrectable Error Status set (R318). (PRESUMED, log 182) -/
def State.aer (s : State) (bits : Long) : State := { s with fn := { s.fn with aerUnc := s.fn.aerUnc ||| bits } }

/-- An internal error that the device's checks find (R318): Corrected Internal Error, bit 14 of the Correctable Error Status, or
Uncorrectable Internal Error, bit 22. (PRESUMED, log 182) -/
def State.internalError (s : State) (corrected : Bool) : State :=
  if corrected then { s with fn := { s.fn with aerCor := s.fn.aerCor ||| 0x4000#32 } } else s.aer 0x400000#32

/-- Error record fields other than TIME (R464). -/
structure ErrRec where
  severity : Nat
  unit : Nat
  code : Nat
  source : Nat := 0
  coach : Nat := 0xFFFF
  addr : Nat := 0
  period : Nat := 0
  deriving DecidableEq, Repr

/-- The 16 words of an error record (R464). -/
def ErrRec.words (r : ErrRec) (t : Nat) : List Word :=
  [BitVec.ofNat 16 (0x8000 + r.severity * 4096 + r.unit * 256 + r.code), BitVec.ofNat 16 r.source, BitVec.ofNat 16 r.coach] ++
    toWords r.addr 3 ++ toWords t 6 ++ toWords r.period 2 ++ [0#16, 0#16]

/-- A record put in the ring of 32, counted, and journaled as EVENT 0x08 (R464). -/
def State.putRecord (s : State) (ws : List Word) : State :=
  let n := (s.reg 0x380003).toNat
  let s := (s.setRegs (0x380100 + n % 32 * 16) ws).setReg 0x380003 (BitVec.ofNat 16 (n + 1))
  s.journal { origin := .self, target := .event 8 0, old := wordAt ws 0, new := wordAt ws 1 }

/-- An error record written (R464). -/
def State.record (s : State) (r : ErrRec) : State :=
  let (t, s) := s.readTime
  s.putRecord (r.words t)

/-! ### The twin link and eligibility -/

/-- TW_STATUS.LINK (R370). -/
def State.linkUp (s : State) : Bool := s.bit 0x0F0000 10

/-- Octets as AEAD_AES_256_GCM carries them under the pair session key (R371): 16 more, and free. (DESIGN CHOICE, log 188) -/
def sealedOctets (fv : Nat) (o : List Byte) : List Byte :=
  (List.range (o.length + 16)).map fun i => BitVec.ofNat 8 (Config.freeNat (fv + i))

/-- A master key as it travels (R371). -/
def SrtpKey.sealed (fv : Nat) (k : SrtpKey) : SrtpKey := { k with key := sealedOctets fv k.key }

/-- The master keys of one direction as they travel (R371). -/
def SrtpDir.sealed (fv : Nat) (d : SrtpDir) : SrtpDir :=
  { d with current := d.current.map (SrtpKey.sealed fv), next := d.next.map (SrtpKey.sealed (fv + 64)) }

/-- An object of STATE as it travels: its master keys and the classifier's hash keys are encrypted (R371). -/
def StateObj.sealed (fv : Nat) : StateObj → StateObj
  | .ctx i x => .ctx i { x with rx := x.rx.sealed fv, tx := x.tx.sealed (fv + 128) }
  | .hashes _ _ second rekeying => .hashes (Config.freeNat fv) (Config.freeNat (fv + 1)) second rekeying
  | x => x

/-- A COMMIT as it travels: the master key of KEY_SET's block, words 7 to 22, is encrypted (R307, R371). (DESIGN CHOICE, log 188) -/
def sealedCommit (fv : Nat) (c : Commit) : Commit :=
  if c.op = 0x48#8 then
    { c with blocks := c.blocks.map fun b => b.take 7 ++ (List.range 24).map (fun i => Config.freeWord (fv + i)) ++ b.drop 23 }
  else c

/-- The numbers DECISION carries (R371): a new hash key is encrypted. -/
def Decision.sealed (fv : Nat) : Decision → List Nat
  | .rekey _ m => (Decision.rekey (Config.freeNat fv) m).body
  | d => d.body

/-- The device drives its link, unless the fence lets nothing more pass (R386): a message with its header's LENGTH and what its
encryption needs, both free. (DESIGN CHOICE, log 188) -/
def State.linkOut (s : State) (f : Nat → Nat → Out) : State :=
  if s.linkUp && !s.tw.gateClosed then
    (State.send { s with fv := s.fv + 257 } (f (Config.freeNat s.fv % 2048) (s.fv + 1))).count 3176 1
  else s

/-- A message of a type sent. -/
def State.linkSend (s : State) (type mseq : Nat) (body : List Nat) : State := s.linkOut fun len _ => .link type len mseq body

/-- The link runs on lanes too few for the admitted use, so the primary does not mirror (R373). (DEDUCED, log 130) -/
def State.mirrorHeld (s : State) (frameOrCut : Bool) : Bool := frameOrCut && s.tw.mirrorHold

/-- A message of the mirror stream, numbered by MSEQ (R374). Only a PRIMARY device with its link up mirrors. -/
def State.mirrorOut (s : State) (frameOrCut : Bool) (f : Nat → Nat → Nat → Out) : State :=
  if s.role = 1 ∧ s.linkUp ∧ !s.mirrorHeld frameOrCut then
    let m := (s.tw.mseqTx + 1) % 2 ^ 32
    State.linkOut { s with tw := { s.tw with mseqTx := m } } (f m)
  else s

/-- A message of a type of the mirror stream. -/
def State.mirror (s : State) (type : Nat) (body : List Nat) : State :=
  s.mirrorOut (type = 4 || type = 5) fun m len _ => .link type len m body

/-- The governor requests a yield (R403). -/
def State.yieldReq (s : State) : Bool := s.bit 0x020000 12

/-- The device is eligible for the PRIMARY role (R369, R402, R403, R456, R465). -/
def State.eligible (s : State) : Bool :=
  !s.bit 0x3C0000 15 && !s.bit 0x380000 15 && !s.yieldReq && !s.bit 0x0F0001 15 && !s.bit 0x010018 10
    && !(s.role = 2 && decide (2 ≤ fld (s.reg 0x020000) 14 2))

/-- The twin can take over (R387): SYNC = 1 and eligible, with the link up. -/
def State.twinReady (s : State) : Bool := s.linkUp && s.tw.peer.sync && s.tw.peer.eligible

end Sys2Proof.Machine
end

