-- ==== Sys2Proof/Machine/Time.lean ====
section
/-! DEFINITION. Device time and what it drives: the advance at an edge (R319, R320, R323, R327), the compare modes
(R335, R336), alarm and analogue comparators (R338, R339), frame timers (R340 to R344), the PPS pins (R332 to R334), the
conversions to PTP form (R328, R329), and the period grid and rounds (R255, R257). -/
namespace Sys2Proof.Machine

/-! ### Periods and rounds (R255, R257) -/

/-- The boundary at which period g of a class of m × 2.5 ms begins: ceil(g × m × 2^44 / 25). -/
def boundaryOf (m g : Nat) : Nat := (g * m * 2 ^ 44 + 24) / 25

/-- The period index in progress at device time t. -/
def curPeriod (m t : Nat) : Nat := 25 * t / (m * 2 ^ 44)

/-- The multiple m of a period code (R70): 1, 2, 4, 8, 16, 24; none for a reserved code. -/
def periodMul (code : Nat) : Option Nat := [1, 2, 4, 8, 16, 24][code]?

/-- The period index of the first boundary at or after device time t. -/
def firstPeriodAt (m t : Nat) : Nat :=
  let g := curPeriod m t
  if boundaryOf m g = t then g else g + 1

/-- The first period whose boundary lies at least 1 ms after t (R257). -/
def firstPeriodAfter (m t : Nat) : Nat := firstPeriodAt m (t + (2 ^ 48 + 999) / 1000)

/-- The round in progress at device time t (R257). -/
def roundOf (t : Nat) : Nat := t / 2 ^ 38

/-! ### Conversion to and from PTP time -/

/-- Device time to PTP form (R328): seconds, nanoseconds and units of 2^-16 ns. -/
def dtToPtp (t : Nat) : Nat × Nat × Nat :=
  let y := (t % 2 ^ 48 * 10 ^ 9 + 2 ^ 31) / 2 ^ 32
  let s := t / 2 ^ 48
  if y = 10 ^ 9 * 2 ^ 16 then ((s + 1) % 2 ^ 48, 0, 0) else (s % 2 ^ 48, y / 2 ^ 16, y % 2 ^ 16)

/-- PTP form to device time (R329). -/
def ptpToDt (seconds ns sub : Nat) : Nat :=
  seconds * 2 ^ 48 + ((ns * 2 ^ 16 + sub) * 2 ^ 32 + 5 * 10 ^ 8) / 10 ^ 9

/-- What a residence time adds to correctionField (R331). -/
def residence (d : Nat) : Nat := (d * 10 ^ 9 + 2 ^ 31) / 2 ^ 32

/-! ### Compare modes (R335) -/

/-- STEP: the count steps into v. -/
def stepMatch (n v old new : Nat) : Bool :=
  decide ((v + 2 * 2 ^ n - old - 1) % 2 ^ n < (new + 2 ^ n - old) % 2 ^ n)

/-- REACHED: the count has reached or passed v within half its range. -/
def reachedMatch (n v new : Nat) : Bool := decide ((new + 2 ^ n - v) % 2 ^ n < 2 ^ (n - 1))

/-- The match of a comparator at an advance. -/
def compareMatch (reached : Bool) (n v old new : Nat) : Bool :=
  if reached then reachedMatch n v new else stepMatch n v old new

/-! ### Alarm comparators (R338) -/

/-- Where alarm n's registers stand (R345). -/
def almBase (n : Nat) : Nat := 0x010100 + n % 16 * 0x10

/-- Alarm n matches at an advance of device time. -/
def State.alarmHits (s : State) (n old new : Nat) : Bool :=
  let b := almBase n
  s.bit (b + 10) 15 && compareMatch (s.bit (b + 10) 14) 96 (s.regs b 6) old new

/-- The wake sequence starts (R338, R414, R493): its alarm, stage 0, VCORE_EN high. -/
def State.startWake (s : State) (alarm : Nat) : State :=
  let w := putFld (putFld (s.reg 0x010401) 8 4 alarm) 7 1 0
  let s := s.setReg 0x010401 w
  { s with pw := { s.pw with wake := .stage 0, wakeAt := s.time, vcoreEn := true } }

/-- A match of alarm n acted on (R336, R338): MATCHED or MISSED, PORTER, the wake, the repeat. -/
def State.alarmAct (s : State) (n : Nat) : State :=
  let b := almBase n
  let s := if s.bit (b + 11) 15 then s.setBit (b + 11) 14 else s.setBit (b + 11) 15
  let s := if s.bit (b + 10) 12 then s.stewardLine 10 else s
  let s := if s.bit (b + 10) 13 then s.setRegs b (toWords ((s.regs b 6 + s.regs (b + 6) 4) % 2 ^ 96) 6) else s
  if s.bit (b + 10) 11 && decide (s.pw.wake = .night) then s.startWake n else s

/-- A commit of alarm n's compare value or enable: in REACHED mode it is evaluated at once (R335). -/
def State.alarmCommit (s : State) (n : Nat) : State :=
  let b := almBase n
  if s.bit (b + 10) 15 && s.bit (b + 10) 14 && reachedMatch 96 (s.regs b 6) s.time then s.alarmAct n else s

/-! ### Frame timers (R340 to R344) -/

/-- Where timer t of frame f has its registers (R345). -/
def tmrBase (f t : Nat) : Nat := 0x200300 + f * 0x10000 + t % 8 * 0x20

/-- Events of a source counted for the next edge (R341). -/
def State.timerEvent (s : State) (src n : Nat) : State :=
  { s with clk := { s.clk with tevents := tblSet 0 s.clk.tevents src (tblGet 0 s.clk.tevents src + n) } }

/-- The event sources of R341: PPS_IN, deliveries to a reckoner, descriptors of its courier channels, matches of a timer. -/
def srcDelivery (r : Nat) : Nat := 200 + r
/-- Descriptors completed on a reckoner's courier channels. -/
def srcDescriptor (r : Nat) : Nat := 400 + r
/-- Matches of a timer, as frame × 8 + t. -/
def srcMatch (i : Nat) : Nat := 600 + i

/-- The events EVSEL selects for a timer, among those of an edge interval (R341). -/
def State.timerEvents (s : State) (ev : Tbl Nat) (f t : Nat) : Nat :=
  let k := match fld (s.reg (tmrBase f t)) 8 2 with
    | 0 => 0
    | 1 => srcDelivery (f * 8 + t)
    | 2 => srcDescriptor (f * 8 + t)
    | _ => srcMatch (f * 8 + (t + 1) % 8)
  tblGet 0 ev k

/-- GATED: the selected gate is open (R341). -/
def State.gateOpen (s : State) (f t : Nat) : Bool :=
  let x := s.engAt (reckoner (f * 8 + t))
  match fld (s.reg (tmrBase f t)) 10 2 with
  | 0 => true
  | 1 => x.meter.running
  | 2 => x.meter.running && !x.meterHeld
  | _ => s.bit 0x010026 13

/-- The count copied into the capture register (R333, R343). -/
def State.capture (s : State) (f t : Nat) : State :=
  let b := tmrBase f t
  let s := if s.bit (b + 1) 13 then s.setBit (b + 1) 12 else s
  ((s.setRegs (b + 14) (toWords (s.regs (b + 10) 4) 4)).setBit (b + 1) 13)

/-- Timers of every powered frame whose CAPSRC is c capture; position p limits them to that timer (R343). -/
def State.captureSrc (s : State) (c : Nat) (which : List (Nat × Nat)) : State :=
  which.foldl (fun s x =>
    if frameOn s x.1 && decide (fld (s.reg (tmrBase x.1 x.2)) 2 2 = c) then s.capture x.1 x.2 else s) s

/-- Every timer, as frame and number. -/
def allTimers : List (Nat × Nat) := (List.range 192).map fun i => (i / 8, i % 8)

/-- A timer that fires in REACHED mode on device time may be a job's watchdog, which the kernel answers (R265). (DESIGN CHOICE, log 72) -/
def State.fire (s : State) (f t : Nat) : State :=
  let b := tmrBase f t
  if s.bit b 7 && decide (fld (s.reg b) 12 2 = 0) then { s with clk := { s.clk with fired := s.clk.fired ++ [(f * 8 + t, s.regs (b + 2) 4)] } }
  else s

/-- A match of a timer (R336, R344): MATCHED or MISSED, TMR, the repeat, STOPM; counted as an event. -/
def State.timerAct (s : State) (f t : Nat) : State :=
  let b := tmrBase f t
  let s := s.fire f t
  let s := if s.bit (b + 1) 15 then s.setBit (b + 1) 14 else s.setBit (b + 1) 15
  let s := if s.bit b 4 then s.requestLine (reckoner (f * 8 + t)) 1 else s
  let s := if s.bit b 6 then s.setRegs (b + 2) (toWords ((s.regs (b + 2) 4 + s.regs (b + 6) 4) % 2 ^ 64) 4) else s
  let s := if s.bit b 5 then s.clrBit b 15 else s
  (s.count (2688 + 8 * f + 6) 1).timerEvent (srcMatch (f * 8 + t)) 1

/-- A commit of a timer's compare value or enable: in REACHED mode it is evaluated at once (R335, R340). -/
def State.timerCommit (s : State) (f t : Nat) : State :=
  let b := tmrBase f t
  if frameOn s f && s.bit b 15 && s.bit b 7 && reachedMatch 64 (s.regs (b + 2) 4) (s.regs (b + 10) 4) then s.timerAct f t
  else s

/-- A timer's count after an edge from one device time to another, and whether the timer matches there (R335, R340, R341). -/
def State.timerNext (s : State) (told tnew : Nat) (ev : Tbl Nat) (f t : Nat) : Nat × Bool :=
  let b := tmrBase f t
  let old := s.regs (b + 10) 4
  let go := s.bit b 15 && s.gateOpen f t
  let new := match fld (s.reg b) 12 2 with
    | 0 => tnew / 65536 % 2 ^ 64
    | 1 => if go then (old + (tnew / 65536 + 2 ^ 80 - told / 65536)) % 2 ^ 64 else old
    | 2 => if go then (old + s.timerEvents ev f t) % 2 ^ 64 else old
    | _ => old
  (new, s.bit b 15 && decide (new ≠ old) && compareMatch (s.bit b 7) 64 (s.regs (b + 2) 4) old new)

/-- One timer at an edge (R336, R340): its count advances by its source, and a match acts. -/
def State.timerEdge (s : State) (told tnew : Nat) (ev : Tbl Nat) (f t : Nat) : State :=
  let r := s.timerNext told tnew ev f t
  let s := s.setRegs (tmrBase f t + 10) (toWords r.1 4)
  if r.2 then s.timerAct f t else s

/-! ### The global start (R342) -/

/-- The timers that a global start now would start: those of powered frames with GSTART = 1 and RUN = 0. -/
def State.starters (s : State) : List (Nat × Nat) :=
  allTimers.filter fun x => frameOn s x.1 && s.bit (tmrBase x.1 x.2) 14 && !s.bit (tmrBase x.1 x.2) 15

/-- The global start: timers set RUN and clear GSTART; it is armed again by a commit of NP_GSTART. -/
def State.globalStart (s : State) (l : List (Nat × Nat)) : State :=
  let s := { s with clk := { s.clk with gsArmed := false } }
  l.foldl (fun s x => (s.setBit (tmrBase x.1 x.2) 15).clrBit (tmrBase x.1 x.2) 14) s

/-- The armed global start is reached at this device time. -/
def State.startsAt (s : State) (t : Nat) : Bool := s.clk.gsArmed && reachedMatch 64 (s.regs 0x010030 4) (t / 65536)

/-! ### The edge (R319) -/

/-- T and R after an edge (R319, R320, R323). -/
def State.edgeTime (s : State) (inc : Nat × Nat × Nat) : Nat × Nat :=
  match s.clk.setNext with
  | some v => (v, 0)
  | none =>
    let x := s.clk.resid + inc.2.1
    (uwrap96 (s.time + inc.1 + x / inc.2.2), x % inc.2.2)

/-- How far the latest reading stands past the count of an edge (R321): readings never decrease, but for a time set (R323). -/
def State.edgePhi (s : State) (t : Nat) : Nat := if s.clk.setNext.isSome ∨ t < s.time then 0 else s.time + s.clk.phi - t

/-- The level of TWIN_HB_OUT changes every 2 µs while the heartbeat runs (R386), here at edges. (DEDUCED, log 1) -/
def State.heartbeat (s : State) : State :=
  if !s.tw.hbStopped && usPassed s.tw.hbAt s.time 2 then { s with tw := { s.tw with hbOut := !s.tw.hbOut, hbAt := s.time } } else s

/-- An instant seen from a device time that has stepped: it lies as far back as before the step. -/
def stepped (told tnew x : Nat) : Nat := (x + tnew + 2 ^ 96 - told % 2 ^ 96) % 2 ^ 96

/-- A step of device time (R323) changes no interval that is running: the instants intervals are measured from step with it. (DEDUCED, log 195) -/
def State.stepInstants (s : State) (told tnew : Nat) : State :=
  let m := stepped told tnew
  { s with
    clk := { s.clk with ppsAt := m s.clk.ppsAt }
    tw := { s.tw with kickAt := m s.tw.kickAt, hbAt := m s.tw.hbAt, helloAt := m s.tw.helloAt, beatAt := m s.tw.beatAt, timeRx := m s.tw.timeRx
                      timeTx := s.tw.timeTx.map m, pairRetryAt := s.tw.pairRetryAt.map m, unexpl := s.tw.unexpl.map m
                      peer := { s.tw.peer with lastMsg := m s.tw.peer.lastMsg, lastHb := m s.tw.peer.lastHb } }
    pw := { s.pw with stageAt := m s.pw.stageAt, calmAt := s.pw.calmAt.map m, intervalAt := m s.pw.intervalAt, recalAt := m s.pw.recalAt
                      wakeAt := m s.pw.wakeAt, retAt := m s.pw.retAt }
    cf := { s.cf with startAt := m s.cf.startAt, erasing := s.cf.erasing.map m }
    gh := { s.gh with rekeySelf := s.gh.rekeySelf.map m }
    frames := s.frames.map fun x => (x.1, { x.2 with corr := x.2.corr.map m }) }

/-- One edge counted with increment inc (R319, R335, R336, R338, R340 to R342): T and R advance; timers and alarms are evaluated against
what was committed before it, and matches act; the global start sets RUN last. (DEDUCED, log 45) -/
def State.advance (s : State) (inc : Nat × Nat × Nat) : State :=
  let told := s.time
  let ev := s.clk.tevents
  let r := s.edgeTime inc
  let set := s.clk.setNext.isSome
  let s := { s with time := r.1, clk := { s.clk with resid := r.2, phi := s.edgePhi r.1, setNext := none, tevents := [] } }
  let s := if set then
      let s := { s with ty := { s.ty with minute := r.1 / (60 * 2 ^ 48) }, ik := { s.ik with grid := curPeriod 1 r.1, round := roundOf r.1 } }
      (s.stepInstants told r.1).setBit 0x010019 3
    else s
  let l := if s.startsAt r.1 then some s.starters else none
  let hits := (List.range 16).filter fun n => s.alarmHits n told r.1
  let s := allTimers.foldl (fun s x => if frameOn s x.1 then s.timerEdge told r.1 ev x.1 x.2 else s) s
  let s := hits.foldl (fun s n => s.alarmAct n) s
  (match l with
  | some l => s.globalStart l
  | none => s).heartbeat

/-- The increment of the next counted edge put in force (R320). -/
def State.takeInc (s : State) : State :=
  let (i, r) := s.nextInc
  { s with clk := { s.clk with inc := i, resid := r, incNext := none } }

/-- The edge that advances device time next: of the TCXO, or of the internal reference while the Night Porter counts from that (R319,
R327). (DEDUCED, log 41) -/
def State.nextEdge (s : State) : State :=
  if s.bit 0x010018 10 then s.advance nominalInc
  else
    let s := s.takeInc
    s.advance s.clk.inc

/-- Device time before and after the next edge, the increment in force taken into account. -/
def State.edgeTimes (s : State) : Nat × Nat :=
  let (i, r) := s.nextInc
  (s.time, (State.edgeTime { s with clk := { s.clk with resid := r } } i).1)

/-- Alarm n matches at the next edge (R338). -/
def State.alarmNext (s : State) (n : Nat) : Bool := s.alarmHits n s.edgeTimes.1 s.edgeTimes.2

/-- A frame timer matches at the next edge (R340). -/
def State.timerFires (s : State) (f t : Nat) : Bool :=
  frameOn s f && (s.timerNext s.edgeTimes.1 s.edgeTimes.2 s.clk.tevents f t).2

/-- The global start is reached at the next edge (R342). -/
def State.startNext (s : State) : Bool := s.startsAt s.edgeTimes.2

/-- A rising edge on TCXO_IN (R319). PPS_IN is sampled at the edge (R341). While the Night Porter counts from its internal
reference the edge is not counted (R327). -/
def tcxoEdge (pps : Bool) (s : State) : State :=
  let s := s.putBit 0x010026 13 pps
  if s.bit 0x010018 10 then s else s.nextEdge

/-! ### Commits of time registers -/

/-- An increment is accepted (R320): DEN ≠ 0, NUM < DEN, and its value within ±500 ppm of the nominal one. -/
def incOk (int num den : Nat) : Bool :=
  let nom := 7330077 * 9375 + 4861
  let v := (int * den + num) * 9375
  decide (den ≠ 0) && decide (num < den) && decide (nom * den * 999500 ≤ v * 1000000) &&
    decide (v * 1000000 ≤ nom * den * 1000500)

/-- A commit of NP_INC (R320, R327). The words of an ignored commit are not kept. (DEDUCED, log 39; DEDUCED, log 40) -/
def incCommit (s : State) (ws : List Word) : State :=
  let int := wordsAt ws 0 2
  let num := wordsAt ws 2 2
  let den := wordsAt ws 4 2
  if incOk int num den then
    let s := s.setRegs 0x010010 ws
    { s with clk := { s.clk with incNext := some (int, num, den) } }
  else s.setBit 0x010019 5

/-- The servo corrects device time through R320 alone: an increment within its bounds, which is free, or the one in force (R325, R380). (DEDUCED, log 133) -/
def State.slew (s : State) : State :=
  let ws := toWords (Config.freeNat s.fv) 6
  let s := s.drawn
  if incOk (wordsAt ws 0 2) (wordsAt ws 2 2) (wordsAt ws 4 2) then incCommit s ws else s

/-- A guaranteed coach is admitted or a board is allocated (R323). -/
def State.timeInUse (s : State) : Bool := s.ik.coaches.any (fun c => c.2.valid) || decide (s.openBoards ≠ 0)

/-- NP_TIME_STATUS.SLAVED (R380): the device is SECONDARY or SYNCING. -/
def State.slaved (s : State) : Bool := decide (s.role = 2) || decide (s.role = 3)

/-- A commit of NP_SET (R323, R324), journaled word by word with its writer's origin. (DEDUCED, log 39) -/
def setCommit (s : State) (o : Origin) (ws : List Word) : State :=
  let old := (List.range 6).map fun i => s.reg (0x010008 + i)
  if s.timeInUse ∨ s.slaved = true then
    let d := if s.timeInUse then 0x5E else 0x5F
    (s.setBit 0x010019 4).journalGroup o .stateConflict d 0x010008 (old.zip ws)
  else
    let s := (s.setRegs 0x010008 ws).setBit 0x010018 15
    let s := { s with clk := { s.clk with setNext := some (wordsAt ws 0 6) } }
    s.journalGroup o .ok 0 0x010008 (old.zip ws)

/-- A commit of NP_GSTART rearms the global start (R342). -/
def gstartCommit (s : State) (ws : List Word) : State :=
  let s := s.setRegs 0x010030 ws
  { s with clk := { s.clk with gsArmed := true } }

/-! ### PPS (R332, R334) -/

/-- A rising edge on PPS_IN (R332, R345): LEVEL, and after at least 50 ns of low level NP_PPS_CAP, the timers that capture on it, and their
event. -/
def ppsCapture (lowNs : Nat) (s : State) : State :=
  let s := s.setBit 0x010026 13
  if lowNs < 50 then s
  else
    let (t, s) := s.readTime
    let s := if s.bit 0x010026 15 then s.setBit 0x010026 14 else s
    let s := (s.setRegs 0x010020 (toWords t 6)).setBit 0x010026 15
    (s.captureSrc 1 allTimers).timerEvent 0 1

/-- NP_PPS_OUT_OFS in device units (R334). -/
def State.ppsOfs (s : State) : Int := ((s.reg 0x010028).toInt * 2 ^ 48 + 5 * 10 ^ 8) / 10 ^ 9

/-- The first instant at or after the last edge at which uwrap48(t + ofs) = 0 (R334). -/
def State.ppsNext (s : State) : Nat := s.time + ((-((s.time : Int) + s.ppsOfs)) % 2 ^ 48).toNat

/-- That instant falls in the edge interval in progress. -/
def State.ppsInstant (s : State) : Bool := decide (s.ppsNext < s.time + s.incUnits)

/-- PPS_OUT rises (R334) at that instant; EN and WIDTH as they stand now rule this pulse. -/
def ppsRise (s : State) : State :=
  if s.bit 0x010027 15 && s.bit 0x010018 15 && s.ppsInstant && !s.clk.ppsOut then
    { s with clk := { s.clk with ppsOut := true, ppsAt := uwrap96 s.ppsNext, ppsWidth := fld (s.reg 0x010027) 0 10 } }
  else s

/-- PPS_OUT falls WIDTH ms after it rose (R334), at an instant before the next edge. -/
def ppsFall (s : State) : State :=
  if s.clk.ppsOut && usPassed s.clk.ppsAt (s.time + s.incUnits - 1) (1000 * s.clk.ppsWidth) then
    { s with clk := { s.clk with ppsOut := false } }
  else s

/-! ### Analogue comparators (R339) -/

/-- Where analogue comparator n has its registers. -/
def anaBase (n : Nat) : Nat := 0x010200 + n % 4 * 4

/-- THRESH in its unit: mV for comparators 0 and 1, signed quarter degrees for 2 and 3. -/
def State.anaThresh (s : State) (n : Nat) : Int :=
  let w := (s.reg (anaBase n + 1)).extractLsb' 0 11
  if n < 2 then w.toNat else w.toInt

/-- The hysteresis in the threshold's unit. -/
def State.anaHyst (s : State) (n : Nat) : Int :=
  (fld (s.reg (anaBase n)) 11 3 : Int) * (if n < 2 then 4 else 2)

/-- Comparator n's input at v enters the condition. -/
def State.anaEnters (s : State) (n : Nat) (v : Int) : Bool :=
  let b := anaBase n
  s.bit b 15 && !s.bit (b + 2) 15 &&
    (if s.bit b 14 then decide (s.anaThresh n < v) else decide (v < s.anaThresh n))

/-- Comparator n's input at v has returned past THRESH by the hysteresis. (DEDUCED, log 43) -/
def State.anaLeaves (s : State) (n : Nat) (v : Int) : Bool :=
  let b := anaBase n
  s.bit (b + 2) 15 &&
    (if s.bit b 14 then decide (v ≤ s.anaThresh n - s.anaHyst n) else decide (s.anaThresh n + s.anaHyst n ≤ v))

/-- The condition is entered: STATE, TRIP and, with IE, PACE. -/
def State.anaTrip (s : State) (n : Nat) : State :=
  let b := anaBase n
  let s := (s.setBit (b + 2) 15).setBit (b + 2) 14
  if s.bit b 10 then s.stewardLine 11 else s

/-- The condition is left. -/
def analogueLeft (n : Nat) (v : Int) (s : State) : State :=
  if s.anaLeaves n v then s.clrBit (anaBase n + 2) 15 else s

/-! ### Handover (R392) -/

/-- The planned handover starts: YIELD carries H, the first 2.5 ms boundary at least 1 ms away. Nothing is sent when the
twin cannot take over. -/
def State.startHandover (s : State) : State :=
  if s.role = 1 ∧ s.twinReady ∧ s.tw.handover = none then
    let h := boundaryOf 1 (firstPeriodAfter 1 s.now)
    ({ s with tw := { s.tw with handover := some h } }.setRegs 0x0F0008 (toWords s.now 6)).mirror 10 [h]
  else s

/-! ### Loss of the TCXO (R327) -/

/-- The residue carried over to another denominator (R320). (DEDUCED, log 45) -/
def State.rescaled (s : State) (dOld dNew : Nat) : State :=
  { s with clk := { s.clk with resid := rescale s.clk.resid dOld dNew } }

/-- The TCXO is lost, or stays lost, while n edges of the internal reference elapse: T advances by n nominal increments. (DESIGN CHOICE, log 44) -/
def tcxoLost (n : Nat) (pps : Bool) (s : State) : State :=
  let s := s.putBit 0x010026 13 pps
  let first := !s.bit 0x010018 10
  let s := if first then s.rescaled s.clk.inc.2.2 nominalInc.2.2 else s
  let s := (List.range n).foldl (fun s _ => s.advance nominalInc) s
  if first then
    let s := (s.setBit 0x010019 7).setBit 0x010018 10
    (s.record { severity := 1, unit := 10, code := 7 }).startHandover
  else s

/-- Edges have been present for 1 ms: counting from them resumes with no step in T, and a held increment applies from the
first edge counted. -/
def tcxoResume (s : State) : State :=
  if s.bit 0x010018 10 then (s.clrBit 0x010018 10).rescaled nominalInc.2.2 s.clk.inc.2.2 else s

end Sys2Proof.Machine
end

