-- ==== Sys2Proof/Machine/Rings.lean ====
section
/-! DEFINITION. The portals and rings (R294 to R300): ring registers, completions, notices, punts, interrupts, the dirty
log (R315) and host-window stores (R217, R293). -/
namespace Sys2Proof.Machine

/-- Where portal n's word stands among the stored registers (R288, R294). -/
def portal (n o : Nat) : Nat := 0x2000000 + n * 0x8000 + o

/-- An instance's record; instance 0 is always ACTIVE (R291). -/
def State.instAt (s : State) (n : Nat) : Inst :=
  let d := tblGet {} s.inst n
  if n = 0 then { d with st := .active } else d

/-- The device with an instance's record replaced. -/
def State.setInst (s : State) (n : Nat) (i : Inst) : State := { s with inst := tblSet {} s.inst n i }

/-- The device with an instance's record changed. -/
def State.modInst (s : State) (n : Nat) (f : Inst → Inst) : State := s.setInst n (f (s.instAt n))

/-! ### Ring registers (R294, R295) -/

/-- The rings of a portal by the offset of their configuration: command 3, completion 11, punt 19. -/
def State.ringOn (s : State) (n cfg : Nat) : Bool := s.bit (portal n cfg) 15

/-- SIZE_LOG2 of a ring. -/
def State.ringLog2 (s : State) (n cfg : Nat) : Nat := fld (s.reg (portal n cfg)) 0 4

/-- The base of a ring. -/
def State.ringBase (s : State) (n cfg : Nat) : Nat := s.regs (portal n (cfg - 3)) 3

/-- uwrap16(tail − head) (R295). -/
def ringCount (tail head : Word) : Nat := (tail - head).toNat

/-- The completion ring is enabled with room for one entry (R295). -/
def State.cplRoom (s : State) (n : Nat) : Bool :=
  s.ringOn n 11 && decide (ringCount (s.reg (portal n 13)) (s.reg (portal n 12)) < 2 ^ s.ringLog2 n 11)

/-- PHASE of the entry written at an index (R297). -/
def phaseOf (idx log2 : Nat) : Bool := decide (idx / 2 ^ log2 % 2 = 0)

/-! ### Writes to host memory for an instance (R315, R376) -/

/-- The PASID of the device's requests for an instance; those for the manager carry none (R292). -/
def State.pasidOf (s : State) (n : Nat) : Nat := if n = 0 then 0 else (s.instAt n).pasid

/-- The translation cache holds a page of an instance (R312). -/
def State.atsHas (s : State) (n p : Nat) : Bool := s.fn.ats.any fun x => decide (x.inst = n) && decide (x.page = p)

/-- The requests for these pages of an instance need no translation that could be refused now: every page is in the cache (R218,
R312). -/
def State.atsCached (s : State) (n : Nat) (pages : List Nat) : Bool := s.fn.atsOn && pages.all fun p => s.atsHas n p

/-- A page's translation kept in the cache (R312): it holds 4,096, and which others leave it is free, as the page each is translated to
is. (DEDUCED, log 157) -/
def State.atsKeep (s : State) (n p : Nat) : State :=
  let x : AtsEntry := { inst := n, page := p, target := Config.freeNat s.fv }
  let l := if s.fn.ats.length < 4096 then s.fn.ats else s.fn.ats.eraseIdx (Config.freeNat (s.fv + 1) % s.fn.ats.length)
  { s with fv := s.fv + 2, fn := { s.fn with ats := x :: l } }

/-- Pages of an instance the device is to use with ATS enabled: a translation is requested, and kept, for each that the cache does not
hold (R312). -/
def State.atsUse (s : State) (n : Nat) (pages : List Nat) : State :=
  if !s.fn.atsOn then s
  else pages.foldl (fun s p => if s.atsHas n p then s else (s.send (.translate (s.pasidOf n) p)).atsKeep n p) s

/-- Translations requested of the pages that the cache does not hold (R312). (DEDUCED, log 157) -/
def State.hostAsk (s : State) (n : Nat) (pages : List Nat) : State :=
  pages.foldl (fun s p => if s.atsHas n p then s else s.send (.translate (s.pasidOf n) p)) s

/-- What the device sends of a request whose translation is refused (R312): the translation requests, or with ATS disabled the untranslated
request itself. (DEDUCED, log 157) -/
def State.askRefused (s : State) (n : Nat) (pages : List Nat) (o : Out) : State := if s.fn.atsOn then s.hostAsk n pages else s.send o

/-- The translated pages a request goes to: none of an untranslated request (R312). -/
def State.atsVia (s : State) (n : Nat) (pages : List Nat) : List Nat :=
  if s.fn.atsOn then pages.filterMap fun p => (s.fn.ats.find? fun x => decide (x.inst = n) && decide (x.page = p)).map (·.target) else []

/-- The 4 KiB pages of `bytes` bytes at a host address. (DEDUCED, log 157) -/
def pagesOf (addr bytes : Nat) : List Nat :=
  if bytes = 0 then [] else (List.range ((addr + bytes - 1) / 4096 + 1 - addr / 4096)).map (· + addr / 4096)

/-- The page of the dirty log a byte lies in, if it lies in the range. -/
def DirtyLog.page (d : DirtyLog) (addr : Nat) : Option Nat :=
  let k := (addr - d.base) / 4096
  if d.base ≤ addr ∧ k < d.pages then some k else none

/-- A page marked in the active bitmap, by read, modify and write of host memory in the manager's address space (R315). -/
def State.logPage (s : State) (n k : Nat) : State :=
  match (s.instAt n).log with
  | none => s
  | some d =>
    let pages := pagesOf (d.bitmap + k / 8) 1
    let s := s.atsUse 0 pages
    let s := s.send (.dirtyBit d.bitmap k (s.atsVia 0 pages))
    if d.logged.contains k then s else s.modInst n fun i => { i with log := some { d with logged := k :: d.logged } }

/-- The pages of a write of `bytes` bytes at a host address logged (R315). -/
def State.logWrite (s : State) (n addr bytes : Nat) : State :=
  match (s.instAt n).log with
  | none => s
  | some d =>
    (noRepeats ((List.range bytes).filterMap fun i => d.page (addr + i))).foldl (fun s k => s.logPage n k) s

/-- Words written to an instance's host memory, and logged. -/
def State.hostWrite (s : State) (n addr : Nat) (ws : List Word) : State :=
  let pages := pagesOf addr (2 * ws.length)
  let s := s.atsUse n pages
  (s.send (.hostWrite (s.pasidOf n) addr ws (s.atsVia n pages))).logWrite n addr (2 * ws.length)

/-- Octets written to an instance's host memory, and logged. -/
def State.hostOctets (s : State) (n addr : Nat) (octets : List Byte) : State :=
  let pages := pagesOf addr octets.length
  let s := s.atsUse n pages
  (s.send (.hostOctets (s.pasidOf n) addr octets (s.atsVia n pages))).logWrite n addr octets.length

/-- Bytes of an instance's host memory read for a command (R295, R306). -/
def State.hostRead (s : State) (n addr bytes : Nat) : State :=
  let pages := pagesOf addr bytes
  let s := s.atsUse n pages
  s.send (.hostRead (s.pasidOf n) addr bytes (s.atsVia n pages))

/-! ### Interrupts (R300) -/

/-- HI_P_VECTOR: 0 for the manager (R317); one of the 2,048 vectors. (DESIGN CHOICE, log 36) -/
def State.vectorOf (s : State) (n : Nat) : Nat := if n = 0 then 0 else (s.instAt n).vector % 2048

/-- The first entry written while ARM = 1 sends the vector's message and clears ARM. -/
def State.ringInterrupt (s : State) (n : Nat) : State :=
  if s.bit (portal n 24) 0 then (s.clrBit (portal n 24) 0).msix (s.vectorOf n) else s

/-! ### Completions and notices (R297, R298) -/

/-- The words of a completion entry (R297). -/
def cplWords (phase notice : Bool) (st : Status) (tag : Word) (code detail : Nat) (head : Word) (result : Nat) : List Word :=
  [BitVec.ofNat 16 ((if phase then 0x8000 else 0) + (if notice then 0x4000 else 0) + st.code), tag,
    BitVec.ofNat 16 (code % 256 * 256 + detail % 128), head] ++ toWords result 4

/-- One entry written at the completion ring's tail, in one write, with its interrupt. -/
def State.writeCpl (s : State) (n : Nat) (mk : Bool → List Word) (counter : Nat) : State :=
  let idx := s.reg (portal n 13)
  let lg := s.ringLog2 n 11
  let s := s.hostWrite n (s.ringBase n 11 + 16 * (idx.toNat % 2 ^ lg)) (mk (phaseOf idx.toNat lg))
  ((s.setReg (portal n 13) (idx + 1)).count counter 1).ringInterrupt n

/-- The words of a completion's entry as it would be written now (R297). -/
def State.cplEntry (s : State) (n : Nat) (c : Cpl) : List Word :=
  cplWords (phaseOf (s.reg (portal n 13)).toNat (s.ringLog2 n 11)) false c.status c.tag c.op c.detail (s.reg (portal n 5)) c.result

/-- The COMMIT that brings the twin the entry of a completion that had to wait (R371, R376). (DESIGN CHOICE, log 131) -/
def State.tellCpl (s : State) (n : Nat) (c : Cpl) : State :=
  if n = 0 ∨ c.told = true then s
  else
    s.mirrorOut false fun m len _ => .commit len
      { mseq := m, part := .completion, entry := { ring := Fin.ofNat 512 n, tag := c.tag }, op := BitVec.ofNat 8 c.op, time := s.now, status := c.status
        detail := c.detail, result := c.result, head := s.reg (portal n 5), tail := s.reg (portal n 13) + 1, cpl := some (s.cplEntry n c) }

/-- A completion's entry written to its ring, and told to the twin. -/
def State.putCpl (s : State) (n : Nat) (c : Cpl) : State :=
  (s.tellCpl n c).writeCpl n (fun ph => cplWords ph false c.status c.tag c.op c.detail (s.reg (portal n 5)) c.result) 3161

/-- A notice's entry written to its ring. -/
def State.putNotice (s : State) (n : Nat) (c : Notice) : State :=
  s.writeCpl n (fun ph => cplWords ph true .ok 0#16 c.code c.detail (s.reg (portal n 5)) c.result) 3162

/-- HI_P_STATUS.NOTICE_HELD follows the held notices. -/
def State.noticeHeld (s : State) (n : Nat) : Bool := decide ((s.instAt n).notices ≠ [])

/-- The device may write an instance's completion ring now: it has room, and the device makes requests (R285, R287). -/
def State.cplReady (s : State) (n : Nat) : Bool := s.cplRoom n && !s.dmaOff

/-- Held notices written in code order while the ring has room (R298). -/
def State.flushNotices (s : State) (n : Nat) : Nat → State
  | 0 => s
  | k + 1 =>
    match (s.instAt n).notices with
    | [] => s
    | (c, x) :: _ =>
      if s.cplReady n then
        ((s.modInst n fun i => { i with notices := tblDrop i.notices c }).putNotice n x).flushNotices n k
      else s

/-- A held completion written, where the ring takes it now. -/
def State.putHeld (s : State) (n : Nat) : State :=
  match (s.instAt n).heldCpl with
  | some c => if s.cplReady n then (s.modInst n fun i => { i with heldCpl := none, cplFirst := false }).putCpl n c else s
  | none => s

/-- A completion written, after any held notice, or held (R287, R295, R298). -/
def State.putOrHold (s : State) (n : Nat) (c : Cpl) : State :=
  let s := s.flushNotices n 8
  if s.cplReady n && !s.noticeHeld n then s.putCpl n c
  else s.modInst n fun i => { i with heldCpl := some c, cplFirst := !s.ringOn n 11 }

/-- What stands behind a command that has completed, in ring order (R301, R438): completions that were ready are written, and the first command
that still waits is the one in execution. -/
def State.behindNext (s : State) (n : Nat) : Nat → State
  | 0 => s
  | k + 1 =>
    match (s.instAt n).behind with
    | [] => s
    | (c, w) :: l =>
      if (s.instAt n).heldCpl.isSome || (s.instAt n).busy.isSome then s
      else
        match w with
        | none => ((s.modInst n fun i => { i with behind := l }).putOrHold n c).behindNext n k
        | some w => s.modInst n fun i => { i with behind := l, busy := some { op := c.op, tag := c.tag, result := c.result, wait := w } }

/-- What is held for a completion ring written while it has room (R295, R298): a completion held because its ring was disabled, the
notices, a completion held for another reason. (DESIGN CHOICE, log 181) -/
def State.flushCpl (s : State) (n : Nat) : State :=
  let s := if (s.instAt n).cplFirst then s.putHeld n else s
  let s := if (s.instAt n).cplFirst then s else s.flushNotices n 8
  let s := if s.noticeHeld n then s else s.putHeld n
  s.behindNext n 16

/-- A command's completion: written, after any held notice, or held (R287, R295, R298). A device that does not write
rings for its instances writes only the manager's (R376). -/
def State.complete (s : State) (n : Nat) (c : Cpl) : State :=
  let s := s.modInst n fun i => { i with busy := none }
  if n ≠ 0 ∧ !s.leads then s else (s.putOrHold n c).behindNext n 16

/-- A notice merged into the held one of its code (R298). -/
def Notice.merge (old new : Notice) : Notice :=
  if old.code = 4 then { old with result := old.result + new.result }
  else { old with detail := min 127 (old.detail + 1) }

/-- A notice posted on an instance's ring (R298): written, or held and merged. Only a device that leads posts for an
instance; the manager's ring is each device's own (R376, R377). -/
def State.notice (s : State) (n code result : Nat) : State :=
  if n ≠ 0 ∧ !s.leads then s
  else
    let x : Notice := { code := code, detail := 0, result := result }
    let i := s.instAt n
    match tblFind i.notices code with
    | some y => s.modInst n fun i => { i with notices := tblInsert (tblDrop i.notices code) code (y.merge x) }
    | none =>
      if s.cplReady n && !s.noticeHeld n && decide (i.heldCpl = none) then s.putNotice n x
      else s.modInst n fun i => { i with notices := tblInsert i.notices code x }

/-- A request of the host completed as an Unsupported Request (R289, R318): bit 20. (PRESUMED, log 182) -/
def State.unsupported (s : State) : State := s.aer 0x100000#32

/-- What a failed completion reports (R318), by the cause of R293: 2 Poisoned TLP Received, bit 12; 3 Completion Timeout, bit 14. (PRESUMED, log 182) -/
def State.aerCause (s : State) (cause : Nat) : State := if cause = 2 then s.aer 0x1000#32 else if cause = 3 then s.aer 0x4000#32 else s

/-- The device could read the head of a ring but for its instance's state (R295): it is enabled and holds an entry. -/
def State.ringWaits (s : State) (n : Nat) : Bool :=
  s.ringOn n 3 && decide (ringCount (s.reg (portal n 4)) (s.reg (portal n 5)) ≠ 0) && s.cplRoom n

/-- A command of an instance may be in execution as it leaves ACTIVE: its ring is read, and no command of it waits (R301, R309). (DESIGN CHOICE, log 97) -/
def State.inExecution (s : State) (n : Nat) : Bool :=
  s.ringWaits n && (s.instAt n).busy.isNone && (s.instAt n).heldCpl.isNone && s.leads && !s.dmaOff

/-- An instance error (R293): the first cause recorded; an ACTIVE instance enters ERROR; the notice on the manager's ring and
vector 1 (R317). (DESIGN CHOICE, log 97) -/
def State.instanceError (s : State) (n cause : Nat) : State :=
  let i := s.instAt n
  if n = 0 ∨ i.st = .free then s
  else
    let c := if i.cause = 0 then cause else i.cause
    let st := if i.st = .active then InstState.error else i.st
    let late := i.late || (decide (i.st = .active) && s.inExecution n)
    let s := s.setInst n { i with cause := c, st := st, late := late }
    (s.notice 0 3 (n + c * 65536)).deviceEvent

/-- The instance discards its host-window stores already, for an error recorded before (R293), or the device leaves them to its twin
(R376). -/
def State.hostSilent (s : State) (n : Nat) : Bool :=
  let i := s.instAt n
  !s.leads || decide (i.st = .error) || (decide (i.cause ≠ 0) && (decide (i.st = .quiescing) || decide (i.st = .quiesced)))

/-- Host-window stores and punts of the instance are discarded (R287, R293, R376). -/
def State.hostDrops (s : State) (n : Nat) : Bool := s.dmaOff || s.hostSilent n

/-- A posted host-window store reaches host memory, in order, and is logged; or it is discarded (R217, R287, R293, R376): in D3hot, or
where the host refuses its translation, which is free for a page the cache does not hold (R218), as an instance error of cause 4. (DEDUCED, log 183) -/
def State.hostStore (s : State) (n addr : Nat) (ws : List Word) : State :=
  if s.hostSilent n then s
  else if s.dmaOff then s.instanceError n 4
  else if !s.atsCached n (pagesOf addr (2 * ws.length)) && Config.freeBool s.fv then
    (s.drawn.askRefused n (pagesOf addr (2 * ws.length)) (.hostWrite (s.pasidOf n) addr ws [])).instanceError n 4
  else (s.drawn.hostWrite n addr ws).count 3167 1

/-! ### Punts (R299) -/

/-- What a punted frame carries besides its octets. -/
structure Punt where
  port : Nat
  reason : Nat
  vid : Option Nat
  stream : Option Nat
  stamp : Nat
  frame : List Byte
  deriving DecidableEq, Repr

/-- The octets of frame an entry has room for. -/
def State.puntSpace (s : State) (n : Nat) : Nat := 2 ^ fld (s.reg (portal n 19)) 8 4 - 32

/-- The 16-word header of a punt record (R299). -/
def Punt.header (p : Punt) (phase trunc : Bool) : List Word :=
  [BitVec.ofNat 16 ((if phase then 0x8000 else 0) + (if trunc then 0x4000 else 0) + p.port % 8 * 2048 + p.reason % 16),
   BitVec.ofNat 16 (match p.vid with | some v => 0x1000 + v % 4096 | none => 0),
   BitVec.ofNat 16 p.frame.length,
   BitVec.ofNat 16 (match p.stream with | some i => i | none => 0),
   BitVec.ofNat 16 (match p.stream with | some i => 0x8000 + i / 65536 % 4 | none => 0)] ++
    toWords p.stamp 6 ++ List.replicate 5 0#16

/-- The punt ring of an instance takes a record now. -/
def State.puntRoom (s : State) (n : Nat) : Bool :=
  s.ringOn n 19 && decide (ringCount (s.reg (portal n 21)) (s.reg (portal n 20)) < 2 ^ s.ringLog2 n 19) &&
    !s.hostDrops n

/-- A punt discarded for a full or disabled ring (R224, R298, R299). -/
def State.puntFull (s : State) (n : Nat) : State :=
  let s := (s.setBit 0x080101 6).count 3040 1
  s.notice n 4 1

/-- A frame written to a punt ring, words 1 to 15 and the frame before word 0, or discarded PUNT_FULL (R299). -/
def State.punt (s : State) (n : Nat) (p : Punt) : State :=
  if s.puntRoom n then
    let idx := s.reg (portal n 21)
    let lg := s.ringLog2 n 19
    let size := 2 ^ fld (s.reg (portal n 19)) 8 4
    let a := s.ringBase n 19 + size * (idx.toNat % 2 ^ lg)
    let cut := s.puntSpace n
    let h := p.header (phaseOf idx.toNat lg) (decide (cut < p.frame.length))
    let body := p.frame.take cut
    let s := s.hostOctets n (a + 32) body
    let s := s.hostWrite n (a + 2) (h.drop 1)
    let s := s.hostWrite n a (h.take 1)
    ((s.setReg (portal n 21) (idx + 1)).count 3163 1).ringInterrupt n
  else if s.leads then s.puntFull n
  else s

/-! ### Ring writes (R294, R295, R300) -/

/-- A doorbell write (R295): ignored, with ERR, when the count would exceed the ring or be negative for the other index. `mine`
is the index written, `other` the device's index; `lead` says the written index runs ahead of the other one. -/
def State.doorbell (s : State) (n cfg mine other : Nat) (lead : Bool) (w : Word) : State × Bool :=
  let o := s.reg (portal n other)
  let c := if lead then ringCount w o else ringCount o w
  let ok := decide (c ≤ 2 ^ s.ringLog2 n cfg)
  if ok then (s.setReg (portal n mine) w, true) else (s.setBit (portal n cfg) 14, false)

/-- A write of HI_P_CMD_TAIL requests HOST on the stewards (R146, R295). -/
def cmdDoorbell (n : Nat) (w : Word) (s : State) : State :=
  let r := s.doorbell n 3 4 5 true w
  if r.2 then r.1.stewardLine 8 else r.1

/-- A write of HI_P_CPL_HEAD frees entries, and what was held is written (R295, R298). -/
def cplDoorbell (n : Nat) (w : Word) (s : State) : State :=
  let r := s.doorbell n 11 12 13 false w
  if r.2 then r.1.flushCpl n else r.1

/-- A write of HI_P_PUNT_HEAD frees entries (R295). -/
def puntDoorbell (n : Nat) (w : Word) (s : State) : State := (s.doorbell n 19 20 21 false w).1

/-- A write of a ring's configuration (HI_P_RING_CFG). -/
def ringCfg (n cfg : Nat) (w : Word) (s : State) : State :=
  let off := portal n cfg
  let old := s.reg off
  let on := old.getLsbD 15
  let en := w.getLsbD 15
  let punt := decide (cfg = 19)
  let size := fld w 0 4
  let entry := if punt then fld w 8 4 else 0
  let err := old.getLsbD 14 && !w.getLsbD 14
  if on then
    let s := s.setReg off (putFld (putFld old 15 1 (if en then 1 else 0)) 14 1 (if err then 1 else 0))
    if cfg = 11 ∧ en = false then s.modInst n fun i => { i with cplFirst := i.heldCpl.isSome } else s
  else if en && (decide (size < 4) || (punt && (decide (entry < 11) || decide (14 < entry)))) then s
  else
    let v := (if en then 0x8000 else 0) + (if err then 0x4000 else 0) + entry * 256 + size
    let s := s.setReg off (BitVec.ofNat 16 v)
    if en then
      let s := (s.setReg (portal n (cfg + 1)) 0#16).setReg (portal n (cfg + 2)) 0#16
      if cfg = 11 then s.flushCpl n else s
    else s

/-- A write of HI_P_IRQ (R300): ARM while an entry is not yet consumed sends the message at once and clears ARM. -/
def armWrite (n : Nat) (w : Word) (s : State) : State :=
  let s := s.setReg (portal n 24) (w &&& 1#16)
  let waits := decide (s.reg (portal n 13) ≠ s.reg (portal n 12)) || decide (s.reg (portal n 21) ≠ s.reg (portal n 20))
  if w.getLsbD 0 && waits then s.ringInterrupt n else s

/-- An instance's three rings disabled, as its reset leaves them (R310). -/
def State.ringsOff (s : State) (n : Nat) : State :=
  [3, 11, 19].foldl (fun s c => s.clrBit (portal n c) 15) s

/-- The completions the last COMMITs carried, written again with identical content (R391); in D3hot they wait for D0 (R287). (DEDUCED, log 138) -/
def State.rewriteCpls (s : State) : State :=
  if s.dmaOff then { s with fn := { s.fn with rewrite := true } }
  else
    s.tw.lastCpl.foldl (fun s x =>
      match x.2 with
      | some (idx, ws) => s.hostWrite x.1 (s.ringBase x.1 11 + 16 * (idx % 2 ^ s.ringLog2 x.1 11)) ws
      | none => s) { s with fn := { s.fn with rewrite := false } }

/-- Every register of a portal at its reset value (R287). -/
def State.portalReset (s : State) (n : Nat) : State :=
  (List.range 25).foldl (fun s o => s.setReg (portal n o) 0#16) s

/-- A write to a portal's registers (R294): a FREE instance's portal ignores writes. -/
def portalWrite (n o : Nat) (w : Word) (s : State) : State :=
  if (s.instAt n).st = .free then s
  else if o = 3 ∨ o = 11 ∨ o = 19 then ringCfg n o w s
  else if o = 4 then cmdDoorbell n w s
  else if o = 12 then cplDoorbell n w s
  else if o = 20 then puntDoorbell n w s
  else if o = 24 then armWrite n w s
  else s

/-- A portal's base takes writes (R294): its instance is not FREE, and its ring is disabled. -/
def State.baseOpen (s : State) (n o : Nat) : Bool := decide ((s.instAt n).st ≠ .free) && !s.ringOn n (o + 3)

/-- A base committed (R294): ignored while its ring is enabled; bits 11:0 and 47:40 are not kept. -/
def baseCommit (n o : Nat) (ws : List Word) (s : State) : State :=
  if !s.baseOpen n o then s
  else s.setRegs (portal n o) [wordAt ws 0 &&& 0xF000#16, wordAt ws 1, wordAt ws 2 &&& 0x00FF#16]

/-- A read of a portal's registers (R294). -/
def portalRead (s : State) (n o : Nat) : Word :=
  let i := s.instAt n
  if i.st = .free then 0#16
  else if o = 25 then
    let st := match i.st with
      | .free => 0
      | .active => 1
      | .quiescing => 2
      | .quiesced => 3
      | .error => 4
    BitVec.ofNat 16 (st * 8192 + (if s.noticeHeld n then 4096 else 0) + i.cause % 16 * 256)
  else if o = 26 then BitVec.ofNat 16 (s.vectorOf n)
  else s.reg (portal n o)

end Sys2Proof.Machine
end

