-- ==== Sys2Proof/Machine/Tally.lean ====
section
/-! DEFINITION. Tally (R346 to R365): ledgers, their records and ring, performance counters as numbered, snapshots. -/
namespace Sys2Proof.Machine

/-! ### Ledgers (R346 to R349) -/

/-- The minute of a device time (R347). -/
def minuteOf (t : Nat) : Nat := t / (60 * 2 ^ 48)

/-- Indices of *Ledger counters* (R347); reason j of R348 stands at 32 + j. -/
def lcChTime : Nat := 0
/-- G_STEPS. -/
def lcGSteps : Nat := 1
/-- OVERRUNS. -/
def lcOverruns : Nat := 2
/-- FALLBACKS. -/
def lcFallbacks : Nat := 3
/-- BE_STEPS. -/
def lcBeSteps : Nat := 4
/-- BE_JOBS. -/
def lcBeJobs : Nat := 5
/-- BE_OVERRUNS. -/
def lcBeOverruns : Nat := 6
/-- DRAM_WORDS. -/
def lcDram : Nat := 7
/-- RX_FRAMES. -/
def lcRx : Nat := 8
/-- RX_OCTETS. -/
def lcRxOctets : Nat := 9
/-- TX_FRAMES. -/
def lcTx : Nat := 10
/-- TX_OCTETS. -/
def lcTxOctets : Nat := 11
/-- SRTP_OPS. -/
def lcSrtp : Nat := 12
/-- PUNTS. -/
def lcPunts : Nat := 13

/-- An instance has a ledger (R346, R355). -/
def Inst.hasLedger (i : Inst) : Bool := decide (i.st ≠ .free)

/-- An increment of a ledger, attributed to the minute of instant t (R347). -/
def State.bill (s : State) (n idx amount t : Nat) : State :=
  if n = 0 ∨ !(s.instAt n).hasLedger then s
  else s.modInst n fun i =>
    let k := minuteOf t * 64 + idx
    { i with ledger := { i.ledger with inc := tblSet 0 i.ledger.inc k (tblGet 0 i.ledger.inc k + amount) } }

/-- A reason counted (R348). -/
def State.billReason (s : State) (n reason t : Nat) : State := s.bill n (32 + reason) 1 t

/-- The increments attributed to minute m or earlier added to the totals (R350). -/
def Ledger.close (l : Ledger) (m : Nat) : Ledger :=
  let due := l.inc.filter fun x => decide (x.1 / 64 ≤ m)
  let rest := l.inc.filter fun x => !decide (x.1 / 64 ≤ m)
  { l with
    inc := rest
    tot := due.foldl (fun t x => tblSet 0 t (x.1 % 64) (tblGet 0 t (x.1 % 64) + x.2)) l.tot }

/-- Words 16 to 255 of a record: counters of 8 words, reasons of 4 (R351). -/
def ledgerTotals (tot : Tbl Nat) : List Word :=
  (List.range 14).flatMap (fun i => toWords (tblGet 0 tot i) 8) ++
    (List.range 32).flatMap (fun j => toWords (tblGet 0 tot (32 + j)) 4)

/-- DIGEST of a record (R352): over words 12 to 15, word 0 with PHASE 0, words 2 to 7, words 16 to 255. -/
def recordDigest (r : List Word) : List Word :=
  sha256First8 (wordsOctets ((r.drop 12).take 4 ++ [wordAt r 0 &&& 0x7FFF#16] ++ (r.drop 2).take 6 ++ r.drop 16))

/-- A record of instance n (R351), ROLE, HELD and GAP left 0. -/
def Ledger.record (l : Ledger) (n kind minute : Nat) : List Word :=
  let prev := if l.prev = [] then List.replicate 4 0#16 else l.prev
  let head := [BitVec.ofNat 16 (kind * 4096 + n), 0#16] ++ toWords minute 3 ++ toWords l.seq 2 ++ [0#16]
  let body := ledgerTotals l.tot
  let d := recordDigest (head ++ List.replicate 4 0#16 ++ prev ++ body)
  head ++ d ++ prev ++ body

/-- The digest a record carries. -/
def recDigest (r : List Word) : List Word := (r.drop 8).take 4

/-- HELD marked in a record (R351, R354). -/
def recHeld (r : List Word) : List Word := r.set 1 (wordAt r 1 ||| 0x4000#16)

/-- A record is marked as held. -/
def isHeld (r : List Word) : Bool := (wordAt r 1).getLsbD 14

/-- The ledger ring takes a record now (R353, R354). -/
def State.lrRoom (s : State) : Bool :=
  s.ty.lrOn && !s.dmaOff &&
    decide (ringCount (s.reg 0x0E0003) (s.reg 0x0E0002) < 2 ^ s.ty.lrLog2)

/-- TY_STATUS.HELD: records held for room. -/
def State.recordsHeld (s : State) : Nat :=
  (s.inst.foldl (fun k x => k + (x.2.ledger.held.filter isHeld).length) 0) +
    (s.ty.lrOrphans.filter fun r => isHeld r.1).length

/-- The queued records of an instance that is removed, the first with the GAP that is due (R354, R355). -/
def Ledger.orphans (l : Ledger) : List (List Word × Bool) :=
  match l.held with
  | [] => []
  | r :: rest => (r, l.gap) :: rest.map fun q => (q, false)

/-- n records dropped while held (R354): TY_DROPPED and TY_EVT.DROPPED. -/
def State.recordsDropped (s : State) (n : Nat) : State :=
  if n = 0 then s else (s.setReg 0x0E0006 (BitVec.ofNat 16 (min 65535 ((s.reg 0x0E0006).toNat + n)))).setBit 0x0E0001 2

/-- The ring takes none of an instance's queued records: they are held, and those beyond the newest four are dropped, the oldest
first (R354). -/
def State.holdRecords (s : State) (n : Nat) : State :=
  let l := (s.instAt n).ledger.held
  let k := l.length - 4
  let s := if l.all isHeld then s else s.setBit 0x0E0001 1
  (s.recordsDropped k).modInst n fun i =>
    { i with ledger := { i.ledger with held := (l.map recHeld).drop k, gap := i.ledger.gap || decide (k ≠ 0) } }

/-- Two records of one instance. -/
def sameInst (x y : List Word × Bool) : Bool := decide (fld (wordAt x.1 0) 0 9 = fld (wordAt y.1 0) 0 9)

/-- The same of the records of removed instances. -/
def State.holdOrphans (s : State) : State :=
  let l := s.ty.lrOrphans
  let after := fun (i : Nat) (x : List Word × Bool) => ((l.drop (i + 1)).filter (sameInst x)).length
  let q := (List.range l.length).filterMap fun i => l[i]?.bind fun x =>
    if 4 ≤ after i x then none else some (recHeld x.1, x.2 || (decide (after i x = 3) && decide (4 < (l.filter (sameInst x)).length)))
  let s := if l.all fun x => isHeld x.1 then s else s.setBit 0x0E0001 1
  let s := s.recordsDropped (l.length - q.length)
  { s with ty := { s.ty with lrOrphans := q } }

/-- While the ring takes no record, every record that waits is held (R354). -/
def State.holdAll (s : State) : State := if s.lrRoom then s else s.inst.foldl (fun s x => s.holdRecords x.1) s.holdOrphans

/-- A record formed is queued to be written; without room it is held (R354). -/
def State.queueRecord (s : State) (n : Nat) (r : List Word) : State :=
  (s.modInst n fun i => { i with ledger := { i.ledger with held := i.ledger.held ++ [r] } }).holdAll

/-- What a secondary is to adopt of its primary's ledger is in force from the instance's next close (R385). (DEDUCED, log 67) -/
def State.adoptLedger (s : State) (n : Nat) : State :=
  match tblGet none s.tw.adopt n with
  | some a =>
    let s := s.modInst n fun i => { i with ledger := { i.ledger with tot := a.tot, prev := a.prev, seq := a.seq } }
    { s with tw := { s.tw with adopt := tblDrop s.tw.adopt n } }
  | none => s

/-- Both copies of an instance's ledger are uncorrectable (R457): on a SOLO device it goes on from its last formed record's totals,
with an EVENT entry; on a paired one it is adopted from the twin as R385 gives. -/
def State.ledgerLost (s : State) (n : Nat) : State :=
  if !(s.instAt n).hasLedger then s
  else if s.role = 0 then
    (s.modInst n fun i => { i with ledger := { i.ledger with inc := [] } }).record { severity := 1, unit := 8, code := 2, source := 0 }
  else s.modInst n fun i => { i with ledger := { i.ledger with inc := [], lost := true } }

/-- The records of an instance compared when both devices' have come; on a difference a device that follows, or whose own ledger
was lost (R457), is to adopt its twin's at its next close. (DEDUCED, log 67) -/
def State.settleLedger (s : State) (n : Nat) : State :=
  match tblGet none s.tw.ledgerWait n, tblGet none s.tw.ledgerTwin n with
  | some (q, d), some m =>
    if q ≠ m.seq then s
    else
      let s := { s with tw := { s.tw with ledgerWait := tblDrop s.tw.ledgerWait n, ledgerTwin := tblDrop s.tw.ledgerTwin n } }
      let lost := (s.instAt n).ledger.lost
      let s := if lost then s.modInst n fun i => { i with ledger := { i.ledger with lost := false } } else s
      if d = m.digest ∨ (s.leads = true ∧ lost = false) then s
      else
        let a : Adopt := { tot := m.tot, prev := m.digest, seq := (m.seq + 1) % 2 ^ 32 }
        { s with tw := { s.tw with adopt := tblSet none s.tw.adopt n (some a) } }.setBit 0x0F0002 6
  | _, _ => s

/-- A record of an instance formed (R350, R355): the ledger closed up to the minute, the chain advanced, the twin told its
digest (R371, R385). -/
def State.formRecord (s : State) (n kind minute : Nat) : State :=
  let a := tblGet none s.tw.adopt n
  let s := s.adoptLedger n
  let l := (s.instAt n).ledger.close minute
  let k := if kind = 0 then l.nextKind else kind
  let r := l.record n k minute
  let d := recDigest r
  let s := s.modInst n fun i =>
    { i with ledger := { l with seq := (l.seq + 1) % 2 ^ 32, prev := d, nextKind := 0, held := i.ledger.held } }
  let s := s.queueRecord n r
  let s := if a.isSome then s.journalBit .twin 0x0F0002 6 else s
  let s := { s with tw := { s.tw with ledgerWait := tblSet none s.tw.ledgerWait n (some (l.seq, d)) } }
  let s := if s.role = 1 ∨ s.role = 2 then s.linkSend 9 0 [n, l.seq, ofWords d] else s
  s.settleLedger n

/-- Instances whose minute forms a record (R350). -/
def State.billed (s : State) : List Nat :=
  (List.range 512).filter fun n =>
    let st := (s.instAt n).st
    decide (n ≠ 0) && (decide (st = .active) || decide (st = .quiescing) || decide (st = .error))

/-- Minute M may be closed (R350). -/
def State.minuteDone (s : State) (m : Nat) : Bool :=
  usPassed ((m + 1) * 60 * 2 ^ 48) s.now 1000 && decide ((m + 1) * 60 * 2 ^ 48 ≤ s.now) &&
    s.ik.bejobs.all fun j => match j.issued with
      | some (_, r) => decide (m < minuteOf (r * 2 ^ 38))
      | none => true

/-- Tally closes the oldest minute not yet closed once it may (R350). -/
def minuteClose (s : State) : State :=
  let m := s.ty.minute
  if s.minuteDone m then
    let s := s.billed.foldl (fun s n => s.formRecord n 0 m) s
    ({ s with ty := { s.ty with minute := m + 1 } }).setBit 0x0E0001 0
  else s

/-- A record written at the ring's tail, in its PHASE, with ROLE and GAP as they stand (R351, R354). -/
def State.lrWrite (s : State) (r : List Word) (gap : Bool) : State :=
  let idx := s.reg 0x0E0003
  let a := s.ty.lrBase + 512 * (idx.toNat % 2 ^ s.ty.lrLog2)
  let w0 := wordAt r 0 ||| (if phaseOf idx.toNat s.ty.lrLog2 then 0x8000#16 else 0#16)
  let w1 := wordAt r 1 ||| (if s.leads then 0x8000#16 else 0#16) ||| (if gap then 0x2000#16 else 0#16)
  let r := (r.set 0 w0).set 1 w1
  (s.hostWrite 0 a r).setReg 0x0E0003 (idx + 1)

/-- The minute a record names. -/
def recMinute (r : List Word) : Nat := wordsAt r 2 3

/-- The instance whose oldest queued record is written next: minute order, then instance order (R354). -/
def State.nextRecord (s : State) : Option Nat :=
  (List.range 512).foldl (fun best n =>
    match (s.instAt n).ledger.held with
    | [] => best
    | r :: _ =>
      match best with
      | none => some n
      | some b =>
        match (s.instAt b).ledger.held with
        | q :: _ => if recMinute r < recMinute q then some n else some b
        | [] => some n) none

/-- A formed or held record is written to the ring (R354); where the ring takes none, those that wait are held. -/
def ledgerRecordWrite (s : State) : State :=
  if !s.lrRoom then s.holdAll
  else
    match s.ty.lrOrphans with
    | (r, gap) :: rest => (({ s with ty := { s.ty with lrOrphans := rest } }).lrWrite r gap).holdAll
    | [] =>
      match s.nextRecord with
      | none => s
      | some n =>
        let l := (s.instAt n).ledger
        match l.held with
        | [] => s
        | r :: rest => ((s.modInst n fun i => { i with ledger := { i.ledger with held := rest, gap := false } }).lrWrite r l.gap).holdAll

/-- A write of TY_LR_HEAD (R353). -/
def lrHeadWrite (w : Word) (s : State) : State :=
  if ringCount (s.reg 0x0E0003) w ≤ 2 ^ s.ty.lrLog2 then s.setReg 0x0E0002 w else s.setBit 0x0E0001 4

/-! ### Counters by number (R358, R359) -/

/-- Where a counter lives: a programmable or top-down counter of an engine, or a counter outside the engines. -/
inductive CtrPlace where
  | engine (e : EngId) (key : Nat)
  | outside
  | absent
  deriving DecidableEq, Repr

/-- The place of counter i. (DESIGN CHOICE, log 120) -/
def ctrPlace (i : Nat) : CtrPlace :=
  if i < 2688 then .engine (reckoner (i / 14)) (i % 14)
  else if i < 2880 then .outside
  else if i < 2912 then .engine (stewardPair ((i - 2880) / 8)) ((i - 2880) % 8)
  else if i < 3184 then .outside
  else .absent

/-- A counter is a top-down slot counter (R358). -/
def isTopDown (i : Nat) : Bool := decide (i < 2688) && decide (4 ≤ i % 14)

/-- A counter is programmable (R360). -/
def isProgrammable (i : Nat) : Bool :=
  (decide (i < 2688) && decide (i % 14 < 4)) || (decide (2880 ≤ i) && decide (i < 2912))

/-- The counter's state. -/
def State.ctrAt (s : State) (i : Nat) : PerfCtr :=
  match ctrPlace i with
  | .engine e k => tblGet {} (s.engAt e).perf k
  | .outside => tblGet {} s.cnt i
  | .absent => {}

/-- The device with a counter's state replaced. -/
def State.setCtr (s : State) (i : Nat) (c : PerfCtr) : State :=
  match ctrPlace i with
  | .engine e k => s.modEng e fun x => { x with perf := tblSet {} x.perf k c }
  | .outside => { s with cnt := tblSet {} s.cnt i c }
  | .absent => s

/-- Domains 24 to 31 (R406), by PG_DOM_ON_1; domains 0 to 23 are the frames. -/
def State.domainOn (s : State) (d : Nat) : Bool :=
  if d < 24 then frameOn s d else s.bit 0x02000C (d - 16)

/-- The domain a counter group lies in (R358, R406). -/
def groupDomain (g : Nat) : Nat :=
  if g < 192 then g / 8
  else if g < 216 then g - 192
  else if g < 224 then 24 + (g - 216) / 2
  else if g < 233 then 28
  else if g < 241 then 30
  else if g < 244 then 29
  else 31

/-- The group of counter i (R358). -/
def groupOf (i : Nat) : Nat :=
  if i < 2688 then i / 14
  else if i < 2880 then 192 + (i - 2688) / 8
  else if i < 2912 then 216 + (i - 2880) / 4
  else if i < 3040 then 224 + (i - 2912) / 16
  else if i < 3072 then 232
  else if i < 3136 then 233 + (i - 3072) / 8
  else if i < 3152 then 241
  else if i < 3160 then 242
  else if i < 3176 then 243
  else 244

/-- The counter whose value or control a read of the register space reads, where it counts a memory channel's traffic, or the retries or
lane errors of the link (R358). (DESIGN CHOICE, log 120) -/
def trafficCounter (off : Nat) : Option Nat :=
  let i :=
    if 0x0E2000 ≤ off ∧ off < 0x0E4000 ∧ off % 2 = 0 then (off - 0x0E2000) / 2
    else if 0x0E8000 ≤ off ∧ off < 0x0F0000 ∧ off % 8 = 0 then (off - 0x0E8000) / 8 else 0
  if (3072 ≤ i ∧ i < 3136 ∧ i % 8 < 4) ∨ i = 3178 ∨ i = 3179 then some i else none

/-- A memory channel's reads, writes, words or refreshes, or the link's retries or lane errors, since they were last looked at: a free
number of them is counted (R358). No rule says which accesses reach a channel past the caches, when it refreshes, nor which messages the
link retries. (DESIGN CHOICE, log 120) -/
def State.traffic (s : State) (i : Nat) : State :=
  if (3136 ≤ i ∨ rowsLog2 s ((i - 3072) / 8) ≠ 0) ∧ s.domainOn (groupDomain (groupOf i)) then
    State.count { s with fv := s.fv + 1 } i (Config.freeNat s.fv)
  else s

/-- The live count a read shows (R359): 0 in a domain that is off, and for an absent number. -/
def State.ctrValue (s : State) (i : Nat) : Nat :=
  if i < 3184 ∧ s.domainOn (groupDomain (groupOf i)) then (s.ctrAt i).val else 0

/-- A commit of a counter's value (R359): an absent number and one in a domain that is off ignore it. -/
def counterCommit (i : Nat) (ws : List Word) (s : State) : State :=
  if i < 3184 ∧ s.domainOn (groupDomain (groupOf i)) then
    let v := if isTopDown i then wordsAt ws 0 4 else wordsAt ws 0 3
    s.setCtr i { s.ctrAt i with val := v }
  else s

/-- TY_CNT_CTRL as it reads. -/
def ctrCtrl (c : PerfCtr) : Word :=
  BitVec.ofNat 16 ((if c.en then 0x8000 else 0) + (if c.satMode then 0x4000 else 0) + (if c.sample then 0x2000 else 0) +
    (if c.ovf then 0x1000 else 0))

/-- A write of TY_CNT_CTRL. -/
def ctrCtrlWrite (i : Nat) (w : Word) (s : State) : State :=
  if i < 3184 ∧ s.domainOn (groupDomain (groupOf i)) then
    let c := s.ctrAt i
    s.setCtr i { c with
      en := w.getLsbD 15
      satMode := w.getLsbD 14 && !isTopDown i
      sample := w.getLsbD 13 && isProgrammable i
      ovf := c.ovf && !w.getLsbD 12 }
  else s

/-- A write of TY_CNT_EVSEL (R360): an unlisted code is reserved and has no effect (R9). -/
def ctrEvselWrite (i : Nat) (w : Word) (s : State) : State :=
  if i < 3184 ∧ isProgrammable i ∧ s.domainOn (groupDomain (groupOf i)) ∧ fld w 0 8 ≤ 0x11 then
    s.setCtr i { s.ctrAt i with ev := w.extractLsb' 0 8 }
  else s

/-- The classes of an engine's two slots at a sample (R361), in the table's order: HELD, IDLE, ISSUE, and MEMORY where the instruction
waits for the host window; which of the others a slot is in depends on the pipeline's handshakes and is free, but that PAIR_EMPTY is a slot's only where the other
slot issued. (DESIGN CHOICE, log 186) -/
def slotClasses (x : Engine) (fv : Nat) : Nat × Nat :=
  let free := fun k => 8 + Config.freeNat (fv + k) % (if x.issuedIn.getLsbD (1 - k) then 6 else 5)
  let slot := fun (k rest : Nat) => if x.issuedIn.getLsbD k then 7 else rest
  match x.run with
  | .halted => (5, 5)
  | .waiting => if x.meter.running then (slot 0 (free 0), slot 1 (free 1)) else (6, 6)
  | .reset => (6, 6)
  | .checkstop => (6, 6)
  | .hostWait _ => (slot 0 11, slot 1 (free 1))
  | .running => (slot 0 (free 0), slot 1 (free 1))

/-- A counter of an engine that counts in 64 bits and neither samples nor saturates (R358, R361). -/
def Engine.bump (y : Engine) (k n : Nat) : Engine :=
  let c := tblGet {} y.perf k
  if c.en then { y with perf := tblSet {} y.perf k { c with val := (c.val + n) % 2 ^ 64 } } else y

/-- A reckoner's slot classifier samples (R361): 2 at TD_SLOTS and 1 at the class of each of the two slots, for counters enabled. (DESIGN CHOICE, log 186) -/
def tdSample (r : Nat) (s : State) : State :=
  let e := reckoner r
  let cls := slotClasses (s.engAt e) s.fv
  if frameOn s (r % 192 / 8) then
    { (s.modEng e fun y => { ((y.bump 4 2).bump cls.1 1).bump cls.2 1 with issuedIn := 0#2 }) with fv := s.fv + 2 }
  else s

/-! ### Snapshots (R364, R365) -/

/-- TY_STATUS.SNAP_BUSY. -/
def State.snapBusy (s : State) : Bool := s.bit 0x0E0000 15

/-- Is the group present: a memory channel's is only when the channel is (R215, R364). -/
def State.groupPresent (s : State) (g : Nat) : Bool :=
  decide (g < 245) && (decide (g < 233) || decide (240 < g) || decide (rowsLog2 s (g - 233) ≠ 0))

/-- The counters of the groups that a test names latched at a device time, with their stamps (R364): each group's values and its stamp
in one handshake; a group whose domain is off has stamp 0. (DESIGN CHOICE, log 59) -/
def State.latchGroups (s : State) (t : Nat) (sel : Nat → Bool) : State :=
  let gs := fun g => s.groupPresent g && sel g
  let vals := (List.range 3184).foldl (fun tb i => if gs (groupOf i) then tblSet 0 tb i (s.ctrValue i) else tb) s.sn.snapNew
  let sts := (List.range 245).foldl (fun tb g =>
    if gs g then tblSet 0 tb g (if s.domainOn (groupDomain g) then t else 0) else tb) s.sn.stampsNew
  { s with sn := { s.sn with snapNew := vals, stampsNew := sts } }

/-- All such traffic counted up to now (R358). -/
def State.allTraffic (s : State) : State :=
  (((List.range 64).filter fun k => decide (k % 8 < 4)).map (3072 + ·) ++ [3178, 3179]).foldl (fun s i => s.traffic i) s

/-- A snapshot starts (R364): its time is recorded and the token goes out; every group can latch from now on. A start while one runs is
ignored. (DESIGN CHOICE, log 59) -/
def snapGo (s : State) : State :=
  if s.snapBusy then s
  else
    let (t, s) := s.readTime
    let s := ((s.setBit 0x0E0000 15).setRegs 0x0E0008 (toWords t 6)).allTraffic
    State.latchGroups { s with sn := { s.sn with snapNew := [], stampsNew := [], startNew := t } } t fun _ => true

/-- Groups that the token reaches only now, within 250 ns of the start, latch now: which they are is free (R364). (DESIGN CHOICE, log 59) -/
def State.latchLate (s : State) : State :=
  let (t, s) := s.readTime
  if t ≤ s.sn.startNew + 250 * 2 ^ 48 / 10 ^ 9 ∧ s.sn.startNew ≤ t then
    let fv := s.fv
    State.latchGroups (State.allTraffic { s with fv := fv + 245 }) t fun g =>
      s.domainOn (groupDomain g) && decide (tblGet 0 s.sn.stampsNew g ≠ 0) && decide (Config.freeNat (fv + g) % 2 = 1)
  else s

/-- The group status word of the last snapshot: VALID, OFF (R364). -/
def State.groupStatus (s : State) (g : Nat) : Word :=
  if !s.groupPresent g ∨ s.sn.stamps = [] then 0#16
  else if tblGet 0 s.sn.stamps g = 0 then 0x4000#16
  else 0x8000#16

/-- The words of a snapshot buffer (R365). (DESIGN CHOICE, log 59) -/
def State.snapWords (s : State) : List Word :=
  (toWords (s.regs 0x0E0008 6) 6 ++ [s.reg 0x0E0005, 0#16]) ++
    (List.range 512).flatMap (fun g =>
      if g < 245 then toWords (tblGet 0 s.sn.stamps g) 6 ++ [s.groupStatus g, 0#16] else List.replicate 8 0#16) ++
    (List.range 4096).flatMap (fun i => toWords (tblGet 0 s.sn.snap i) 4)

/-- A SNAPSHOT command's buffer is written and the command completes (R365); in D3hot both wait (R287). -/
def State.snapWrite (s : State) : State :=
  match (s.instAt 0).busy with
  | some { op := op, tag := tag, result := _, wait := .snapshot buf } =>
    if s.snapBusy || s.dmaOff then s
    else (s.hostWrite 0 buf s.snapWords).complete 0 { status := .ok, tag := tag, op := op, detail := 0, result := (s.reg 0x0E0005).toNat }
  | _ => s

/-- Every group has latched (R364): the new values replace the previous ones in one step; a SNAPSHOT command's buffer is
written and its command completes (R365). -/
def snapshotComplete (s : State) : State :=
  if s.snapBusy then
    let n := s.reg 0x0E0005 + 1
    let s := s.latchLate
    let s := { s with sn := { snap := s.sn.snapNew, stamps := s.sn.stampsNew } }
    let s := s.setReg 0x0E0005 n
    ((s.clrBit 0x0E0000 15).setBit 0x0E0001 3).snapWrite
  else s

end Sys2Proof.Machine
end

