-- ==== Sys2Proof/Machine/Innkeeper.lean ====
section
/-! DEFINITION. The Innkeeper's decisions (R252 to R279): coaches and their figures, the admission resources and the demand
test, placement, shares, slots on a port. -/
namespace Sys2Proof.Machine

/-- A stream entry. -/
def State.stream (s : State) (i : Nat) : Stream := tblGet {} s.gh.streams i

/-- The device with a stream entry replaced. -/
def State.setStream (s : State) (i : Nat) (x : Stream) : State :=
  { s with gh := { s.gh with streams := tblSet {} s.gh.streams i x } }

/-- A coach. -/
def State.coach (s : State) (c : Nat) : Coach := tblGet {} s.ik.coaches c

/-- The device with a coach replaced. -/
def State.setCoach (s : State) (c : Nat) (k : Coach) : State :=
  { s with ik := { s.ik with coaches := tblSet {} s.ik.coaches c k } }

/-- The device with a coach changed. -/
def State.modCoach (s : State) (c : Nat) (f : Coach → Coach) : State := s.setCoach c (f (s.coach c))

/-- A program of an instance. -/
def State.prog (s : State) (n i : Nat) : Prog := tblGet {} s.ik.progs (n * 2048 + i)

/-- The frame's state. -/
def State.frameAt (s : State) (f : Nat) : FrameSt := tblGet {} s.frames f

/-- The device with a frame's state replaced. -/
def State.setFrame (s : State) (f : Nat) (x : FrameSt) : State := { s with frames := tblSet {} s.frames f x }

/-- The device with a frame's state changed. -/
def State.modFrame (s : State) (f : Nat) (g : FrameSt → FrameSt) : State := s.setFrame f (g (s.frameAt f))

/-- The frame of a reckoner number. -/
def frameOf (r : Nat) : Nat := r / 8

/-- The coaches admitted, with their numbers. -/
def State.admitted (s : State) : List (Nat × Coach) := s.ik.coaches.filter fun x => x.2.valid

/-! ### Figures of a coach (R259, R267) -/

/-- m of the coach's period class. -/
def Coach.mul (k : Coach) : Nat := (periodMul k.period).getD 1

/-- The coach's program. -/
def State.progOf (s : State) (k : Coach) : Prog := s.prog k.inst k.prog

/-- Channels of the coach. -/
def Coach.size (k : Coach) : Nat := k.members.length

/-- The channel is in the coach in period g. -/
def Member.inPeriod (m : Member) (g : Nat) : Bool := decide (m.first ≤ g) && (match m.last with | some l => decide (g ≤ l) | none => true)

/-- Members of a coach in period g. (DESIGN CHOICE, log 121) -/
def Coach.at_ (k : Coach) (g : Nat) : List Member := k.members.filter fun m => m.inPeriod g

/-- Two board words name one board. -/
def sameBoard (x w : Word) : Bool := decide (fld x 0 12 = fld w 0 12)

/-- Board words joined with a channel's (R305): a board named twice has one entry, which contributes if either does. -/
def joinBoards (a b : List Word) : List Word :=
  (a.map fun x => (b.filter (sameBoard x)).foldl (· ||| ·) x) ++ b.filter fun w => !(a.any fun x => sameBoard x w)

/-- The board words that members bring, in the order in which they joined (R305). -/
def boardsOf (ms : List Member) : List Word := ms.foldl (fun l m => joinBoards l m.boards) []

/-- The board words of every channel that a coach has or is to have. -/
def Coach.boards (k : Coach) : List Word := boardsOf k.members

/-- The board entries of a coach in period g (R264, R305): those of its channels of that period. -/
def Coach.boardsIn (k : Coach) (g : Nat) : List Word := boardsOf (k.at_ g)

/-- Places of a coach's state area that no channel has, lowest first. -/
def Coach.freeSlots (k : Coach) : List Nat := (List.range 64).filter fun i => k.members.all fun m => decide (m.slot ≠ i)

/-- A coach with further channels, each given a free place of its state area (R305). -/
def Coach.with_ (k : Coach) (ms : List Member) : Coach :=
  { k with members := k.members ++ (ms.zip k.freeSlots).map fun x => { x.1 with slot := x.2 } }

/-- A coach as it will be after a coming merge (R260). -/
def State.whole (s : State) (k : Coach) : Coach :=
  match k.takes with
  | some b => k.with_ (s.coach b).members
  | none => k

/-- The budget f + n × h (R259). -/
def State.budgetOf (s : State) (k : Coach) : Nat := (s.progOf k).fixed + k.size * (s.progOf k).perChannel

/-- The coach charge: the budget plus the 1,600 unmetered kernel steps. -/
def State.chargeOf (s : State) (k : Coach) : Nat := s.budgetOf k + 1600

/-- Blocks of a board. -/
def State.boardBlocks (s : State) (b : Nat) : Nat := (s.board b).len1 + 1

/-- The boards among board words that are USED and CONTRIB. -/
def contribs (ws : List Word) : List Nat :=
  (ws.filter fun w => w.getLsbD 15 && w.getLsbD 14).map fun w => fld w 0 12

/-- The padding allowance p (R267). -/
def State.padOf (s : State) (k : Coach) : Nat :=
  let bs := contribs k.boards
  if bs = [] then 0 else 2 * (bs.foldl (fun n b => n + s.boardBlocks b) 0) + 256

/-- W: words staged in and written back per period. -/
def State.movedOf (s : State) (k : Coach) : Nat := 2 * (s.progOf k).staged * k.size

/-- The courier time q (R267). -/
def State.courierOf (s : State) (k : Coach) : Nat := 1280 + (8 * s.movedOf k + 4) / 5

/-- The occupancy o (R267). -/
def State.occOf (s : State) (k : Coach) : Nat := max (s.chargeOf k + s.padOf k) (s.courierOf k)

/-- The period T in steps at the floor. -/
def Coach.steps (k : Coach) : Nat := k.mul * 4000000

/-- The deadline D in steps at the floor (R261). -/
def Coach.deadline (k : Coach) : Nat := (k.rel - 100) * 1600

/-! ### The demand test (R267) -/

/-- Demand of the coaches up to t. -/
def State.demand (s : State) (ks : List Coach) (t : Nat) : Nat :=
  ks.foldl (fun d x => if x.deadline ≤ t then d + ((t - x.deadline) / x.steps + 1) * s.occOf x else d) 0

/-- Best-effort budget limit, 256 × IK_BE_MAX.UNITS (R278). -/
def State.beMax (s : State) : Nat := 256 * (s.reg 0x0C0005).toNat

/-- A reckoner that holds these guaranteed coaches passes. -/
def State.demandOk (s : State) (ks : List Coach) : Bool :=
  let z := 1040 + ks.foldl (fun m x => max m (s.courierOf x)) 0
  let l := max (ks.foldl (fun m x => max m (s.occOf x)) 0) (s.beMax + 1600)
  ks.all fun k =>
    (List.range (192000000 / k.steps + 1)).all fun j =>
      let t := j * k.steps + k.deadline
      decide (192000000 < t) || decide (s.demand ks t + z + l ≤ t)

/-- The guaranteed coaches placed on a reckoner, a coming move counted at its new place as well, a coming merge as made. -/
def State.coachesOn (s : State) (r : Nat) : List Coach :=
  (s.admitted.filter fun x => decide (x.2.reck = r) || decide (x.2.moveTo.map Prod.fst = some r)).map fun x => s.whole x.2

/-! ### Frame ceilings (R266) -/

/-- Words of frame store a board's two banks take, 64 words a block. (DEDUCED, log 61) -/
def State.boardWords (s : State) (b : Nat) : Nat := 2 * 64 * s.boardBlocks b

/-- The coaches on a frame, and those that a coming move brings there. -/
def State.onFrame (s : State) (f : Nat) : List (Nat × Coach) :=
  s.admitted.filter fun x => decide (frameOf x.2.reck = f) || decide (x.2.moveTo.map (fun m => frameOf m.1) = some f)

/-- Frame-store words in use on a frame (R266): banks of boards homed there, one image of each program its coaches run, and its
coaches' descriptor chains. (DEDUCED, log 61; DESIGN CHOICE, log 178) -/
def State.storeUsed (s : State) (f : Nat) : Nat :=
  let banks := s.boards.foldl (fun n x =>
    if x.2.valid ∧ (x.2.home = f ∨ x.2.old.map Prod.fst = some f ∨ x.2.plan.map Prod.fst = some f) then n + s.boardWords x.1 else n) 0
  let ps := noRepeats ((s.onFrame f).map fun x => x.2.inst * 2048 + x.2.prog)
  banks + ps.foldl (fun n p => n + (tblGet {} s.ik.progs p).words) 0 + Config.chainWords * (s.onFrame f).length

/-- The frame's 8 banks hold `extra` more words. (DEDUCED, log 64) -/
def State.storeOk (s : State) (f extra : Nat) : Bool := decide (s.storeUsed f + extra ≤ 8 * 262144)

/-- Posts per 120 ms of the boards homed on a frame. -/
def State.postsOn (s : State) (f : Nat) : Nat :=
  s.boards.foldl (fun n x =>
    if x.2.valid ∧ (x.2.home = f ∨ x.2.old.map Prod.fst = some f ∨ x.2.plan.map Prod.fst = some f) then
      n + (x.2.len1 + 1) * max x.2.expect.toNat x.2.expectNext.toNat * (48 / (periodMul x.2.period).getD 1)
    else n) 0

/-- The frame's adder keeps its ceiling with `extra` more posts per 120 ms. -/
def State.adderOk (s : State) (f extra : Nat) : Bool := decide (s.postsOn f + extra ≤ 80000000 * 12 / 100)

/-- The twin reports a frame in service (R371, R378). -/
def State.twinHas (s : State) (f : Nat) : Bool := decide (s.tw.peer.frames / 2 ^ f % 2 = 1)

/-- A frame is in service on this device (R272, R378). -/
def State.serves (s : State) (f : Nat) : Bool := decide ((s.frameAt f).st = 0) && frameOn s f

/-- A frame takes placements (R269, R378): in service here and, in a pair, on the twin. -/
def State.placeable (s : State) (f : Nat) : Bool := s.serves f && (decide (s.role = 0) || !s.linkUp || s.twinHas f)

/-- A coach that its primary has placed on a frame out of service here is not run (R254, R378). -/
def State.unserved (s : State) (r : Nat) : Bool := !s.leads && !s.serves (frameOf r)

/-- The image's job-buffer size in words (R266, R429). -/
def State.jobBuffer (s : State) : Nat := s.params 6

/-! ### Placement (R269) -/

/-- Admitted occupancy of a reckoner per 120 ms. -/
def State.loadOf (s : State) (r : Nat) : Nat :=
  (s.coachesOn r).foldl (fun n k => n + s.occOf k * (48 / k.mul)) 0

/-- A reckoner takes coach k beside the coaches it holds (a coach given as `but` left out). -/
def State.fits (s : State) (k : Coach) (but : Option Nat) (r : Nat) : Bool :=
  let others := (s.admitted.filter fun x =>
    (decide (x.2.reck = r) || decide (x.2.moveTo.map Prod.fst = some r)) && decide (some x.1 ≠ but)).map fun x => s.whole x.2
  let p := s.progOf k
  let here := s.onFrame (frameOf r)
  let image := if here.any fun x => decide (x.2.inst = k.inst) && decide (x.2.prog = k.prog) then 0 else p.words
  let chain := if here.any fun x => decide (some x.1 = but) then 0 else Config.chainWords
  s.placeable (frameOf r) && decide ((s.engAt (reckoner r)).run ≠ .checkstop) && s.demandOk (k :: others) &&
    s.storeOk (frameOf r) (image + chain) && s.adderOk (frameOf r) 0 &&
    decide (p.staged * k.size ≤ s.jobBuffer)

/-- place(k, S): by the placement policy in force the fullest or emptiest reckoner that fits, ties to the lowest number. -/
def State.place (s : State) (k : Coach) (but : Option Nat) : Option Nat :=
  let spread := s.ik.spread
  ((List.range 192).filter (s.fits k but)).foldl (fun best r =>
    match best with
    | none => some r
    | some b =>
      if spread then (if s.loadOf r < s.loadOf b then some r else some b)
      else if s.loadOf b < s.loadOf r then some r else some b) none

/-- The frame a board is homed on: the first, from f on in frame-number order, in service whose adder and store hold (R269). (DESIGN CHOICE, log 63) -/
def State.homeFor (s : State) (f words posts : Nat) : Option Nat :=
  ((List.range 24).map fun i => (f + i) % 24).find? fun g => s.placeable g && s.storeOk g words && s.adderOk g posts

/-! ### Ports and slots (R262) -/

/-- Legs of a stream that guaranteed output sends on: JITTER one, RELAY both. -/
def Stream.legs (x : Stream) : Nat := if x.form = 0 then 1 else if x.form = 1 then 2 else 0

/-- m of a stream's period. -/
def Stream.mul (x : Stream) : Nat := (periodMul x.period).getD 1

/-- A port's rate in Gb/s (R219). -/
def State.portRate (s : State) : Nat := [200, 100, 50, 25].getD (fld (s.reg 0x080000) 0 3) 25

/-- Ports the mode provides (R219). -/
def State.portCount (s : State) : Nat := [2, 2, 4, 8].getD (fld (s.reg 0x080000) 0 3) 8

/-- A frame's slot in picoseconds: its wire time and 40 ns, on the longest frame admission counts (R262). -/
def State.slotPs (s : State) (x : Stream) : Nat :=
  let oct := 2 * x.templateWords + 16 * x.slotUnits + (if x.srtp then 20 else 0) + 4 + 20
  (oct * 8 * 1000 + s.portRate - 1) / s.portRate + 40000

/-- A stream's slots of one period and leg, in device units, as one span: 2 × PKT_LIMIT slots one after another. -/
def State.spanUnits (s : State) (x : Stream) : Nat :=
  x.legs * 2 * x.pktLimit * ((s.slotPs x * 2 ^ 48 + 10 ^ 12 - 1) / 10 ^ 12)

/-- Streams admitted on a port. -/
def State.onPort (s : State) (p : Nat) : List (Nat × Stream) :=
  s.gh.streams.filter fun x => x.2.valid && decide (x.2.egressPort = p) && decide (x.2.legs ≠ 0)

/-- Two spans of two period classes never overlap over one 120 ms cycle. -/
def spansApart (m1 a1 l1 m2 a2 l2 : Nat) : Bool :=
  let c := boundaryOf 48 1
  (List.range (48 / m1)).all fun i => (List.range (48 / m2)).all fun j =>
    let x := (boundaryOf m1 i + a1) % c
    let y := (boundaryOf m2 j + a2) % c
    (decide (x + l1 ≤ y) || decide (y + l2 ≤ x)) && (decide (x + l1 ≤ c + y)) && decide (y + l2 ≤ c + x)

/-- The stream's slots at this release offset are free on its port. -/
def State.slotsFree (s : State) (i : Nat) (x : Stream) (rel : Nat) : Bool :=
  (s.onPort x.egressPort).all fun o =>
    decide (o.1 = i) || spansApart x.mul rel (s.spanUnits x) o.2.mul o.2.rel (s.spanUnits o.2)

/-- The smallest stagger, a multiple of 2^12 units, from `k` on, that the port's slots allow. -/
def State.findStagger (s : State) (i : Nat) (x : Stream) (rel limit k : Nat) : Nat → Option Nat
  | 0 => none
  | fuel + 1 =>
    let st := k * 4096
    if limit < st + s.spanUnits x then none
    else if s.slotsFree i x (rel + st) then some st
    else s.findStagger i x rel limit (k + 1) fuel

/-- The stagger of a stream whose coach releases at rel µs: less than a fifth of its period (R262). -/
def State.staggerFor (s : State) (i : Nat) (x : Stream) (rel : Nat) : Option Nat :=
  let limit := boundaryOf x.mul 1 / 5
  s.findStagger i x (usUnits rel) limit 0 (limit / 4096 + 1)

/-! ### Admission resources (R266, R372) -/

/-- Rates are kept per 120 ms: every period divides it (R267). -/
def perCycle (m n : Nat) : Nat := n * (48 / m)

/-- Device compute of coaches per 120 ms. (DEDUCED, log 60) -/
def State.computeUse (s : State) (ks : List Coach) : Nat := ks.foldl (fun n k => n + perCycle k.mul (s.occOf k)) 0

/-- Bytes of a leg's ring and departures per period. -/
def Stream.legBytes (x : Stream) : Nat := 2 * x.pktLimit * (2 * (16 + 8 * x.slotUnits) + 16 * x.slotUnits)

/-- DRAM bytes of coaches and streams per 120 ms. (DESIGN CHOICE, log 62) -/
def State.dramUse (s : State) (ks : List Coach) (xs : List Stream) : Nat :=
  ks.foldl (fun n k => n + perCycle k.mul (2 * s.movedOf k)) 0 + xs.foldl (fun n x => n + perCycle x.mul (x.legs * x.legBytes)) 0

/-- Words below x that lie in a memory channel (R212). -/
def chanBelow (ch x : Nat) : Nat := x / 524288 * 65536 + min 65536 (x % 524288 - ch * 65536)

/-- Words of an area that lie in a memory channel. -/
def chanWords (ch a n : Nat) : Nat := chanBelow ch (a + n) - chanBelow ch a

/-- Words of a slot. -/
def Stream.slotWords (x : Stream) : Nat := 16 + 8 * x.slotUnits

/-- Where leg's ring begins (R232). -/
def Stream.ringAt (x : Stream) (leg : Bool) : Nat := x.ringBase + (if leg then 2 ^ x.ringLog2 * x.slotWords else 0)

/-- Where the slot of period g of a leg stands. -/
def Stream.slotAt (x : Stream) (leg : Bool) (g : Nat) : Nat := x.ringAt leg + g % 2 ^ x.ringLog2 * x.slotWords

/-- The slot holds a payload for period g. -/
def State.slotHas (s : State) (a g : Nat) : Bool :=
  (s.readMem a).getLsbD 15 && decide (ofWords (memWords s.mem (a + 14) 2) = g % 2 ^ 32)

/-- Where a channel of a coach keeps its state in DRAM, by its place in the coach's area. -/
def State.stateOf (s : State) (k : Coach) (slot : Nat) : Nat := k.stateBase + slot * (s.progOf k).staged

/-- DRAM bytes per 120 ms that fall on one memory channel (R266): a coach's state by the words of it that lie there, a leg's ring
and departures whole on each channel its ring reaches. (DESIGN CHOICE, log 62) -/
def State.dramOn (s : State) (ch : Nat) (ks : List Coach) (xs : List Stream) : Nat :=
  ks.foldl (fun n k => k.members.foldl (fun n m =>
      n + perCycle k.mul (4 * chanWords ch (s.stateOf k m.slot) (s.progOf k).staged)) n) 0 +
    xs.foldl (fun n x => ((List.range x.legs).filter fun l => decide (chanWords ch (x.ringAt (l = 1)) (2 ^ x.ringLog2 * x.slotWords) ≠ 0)).foldl
      (fun n _ => n + perCycle x.mul x.legBytes) n) 0

/-- Guaranteed streams of a list: those with a coach. -/
def guaranteed (xs : List Stream) : List Stream := xs.filter fun x => x.valid && decide (x.legs ≠ 0)

/-- Frames per 120 ms in one direction. -/
def packetUse (xs : List Stream) : Nat := (guaranteed xs).foldl (fun n x => n + perCycle x.mul (x.legs * 2 * x.pktLimit)) 0

/-- SRTP bits per 120 ms, both directions. -/
def cryptoUse (xs : List Stream) : Nat :=
  (guaranteed xs).foldl (fun n x =>
    if x.srtp then n + perCycle x.mul (2 * x.legs * 2 * x.pktLimit * (16 * x.slotUnits + 56) * 8) else n) 0

/-- Bits per 120 ms counted for the Bozil link (R372). -/
def linkUse (xs : List Stream) : Nat :=
  (guaranteed xs).foldl (fun n x => n + perCycle x.mul (x.legs * 2 * x.pktLimit * (16 * x.slotUnits + 56) * 8)) 0

/-- Departure entries reserved. -/
def departUse (xs : List Stream) : Nat := (guaranteed xs).foldl (fun n x => n + x.legs * 2 * x.pktLimit) 0

/-- Slot time on a port per 120 ms, in ps. -/
def State.portUse (s : State) (p : Nat) (xs : List Stream) : Nat :=
  (guaranteed xs).foldl (fun n x =>
    if x.egressPort = p then n + perCycle x.mul (x.legs * 2 * x.pktLimit * s.slotPs x) else n) 0

/-- Streams in the table. -/
def State.streamList (s : State) : List Stream := (s.gh.streams.map Prod.snd).filter fun x => x.valid

/-- The ceiling of LINK on the lanes in service, in bits per 120 ms (R372, R373). -/
def State.linkCeiling (s : State) : Nat := (if fld (s.reg 0x0F0000) 7 2 = 1 then 50000000000 else 100000000000) * 12 / 100

/-- The image declares a pair (R372, R429). -/
def State.paired (s : State) : Bool := decide (s.params 10 % 2 = 1)

/-- Admitted LINK use fits the lanes in service (R373). -/
def State.linkFits (s : State) : Bool := decide (linkUse s.streamList ≤ s.linkCeiling)

/-- Shares as admission tests them: a pending reduction rules new requests from the next round on (R275). -/
def Inst.share (i : Inst) (k : Nat) : Nat :=
  let base := [i.shares.steps, i.shares.dram, i.shares.streams, i.shares.boards].getD k 0
  match i.pendShares.find? fun p => decide (p.share = k) && p.rules with
  | some p => p.value
  | none => base

/-- An instance's admitted use of its four shares; rates per second, rounded up. (DEDUCED, log 60) -/
def State.useOf (s : State) (n k : Nat) : Nat :=
  let ks := (s.admitted.map Prod.snd).filter fun c => decide (c.inst = n)
  let xs := s.streamList.filter fun x => decide (x.owner = n)
  match k with
  | 0 => (s.computeUse ks * 25 + 2) / 3
  | 1 => (s.dramUse ks xs * 25 + 2) / 3
  | 2 => xs.length
  | _ => (s.boards.filter fun b => b.2.valid && decide (b.2.owner = n)).length

/-- The resources in table order, DEADLINE left out, for the set as it stands in s with `need` more SRTP contexts: the first one over
its ceiling, as its refusal detail. `n` is the requesting instance; `slots`: every slot has a place on its port (R262). -/
def State.overCeiling (s : State) (n need : Nat) (slots : Bool) : Option Nat :=
  let ks := s.admitted.map Prod.snd
  let xs := s.streamList
  let i := s.instAt n
  let ctx := (s.gh.srtp.filter fun c => c.2.used).length + need
  let checks : List (Bool × Nat) :=
    [(decide (307200000000 * fld (s.reg 0x0C0004) 0 7 * 12 < s.computeUse ks * 10000), 0x01),
     (ks.any fun k => decide (s.jobBuffer < (s.progOf k).staged * k.size), 0x14),
     ((List.range 8).any fun c => decide (43750000000 * 12 < s.dramOn c ks xs * 100), 0x07),
     ((List.range 24).any fun f => decide (8 * 262144 < s.storeUsed f), 0x08),
     ((List.range 24).any fun f => decide (80000000 * 12 < s.postsOn f * 100), 0x0A),
     (decide (4096 < s.openBoards), 0x0B),
     (decide (262144 < xs.length), 0x0C),
     (decide (262144 < ctx), 0x0D),
     (decide (65536 < ks.length) || (s.coach 65536).valid, 0x0E),
     (decide (8000000 * 12 < (ks.foldl (fun w k => w + 48 / k.mul) 0) * 100), 0x0F),
     (decide (60000000 * 12 < packetUse xs * 100), 0x10),
     (decide (200000000000 * 12 < cryptoUse xs * 100), 0x11),
     (decide (4128768 < departUse xs), 0x12),
     (((List.range 8).any fun p => decide (120 * 10 ^ 9 < s.portUse p xs * 5)) || !slots, 0x13),
     (decide (i.share 0 < s.useOf n 0), 0x03),
     (decide (i.share 1 < s.useOf n 1), 0x04),
     (decide (i.share 2 < s.useOf n 2), 0x05),
     (decide (i.share 3 < s.useOf n 3), 0x06),
     (s.paired && decide (s.linkCeiling < linkUse xs), 0x16)]
  (checks.find? fun c => c.1).map Prod.snd

/-- The pace governor lets guaranteed work be admitted (R268, R279, R403). -/
def State.paceOk (s : State) : Bool := s.bit 0x020000 13 && !s.bit 0x0C0000 15

/-- The lowest coach number free and rested (R258). (DESIGN CHOICE, log 93) -/
def State.freeCoach (s : State) : Option Nat :=
  (List.range 65536).find? fun c => !(s.coach c).valid && decide (tblGet 0 s.ik.resting c ≤ s.now)

/-- The device is in Park (R409). -/
def State.parked (s : State) : Bool := decide (fld (s.reg 0x020000) 5 3 = 2)

/-- Nothing is admitted or issued (R410, R411): the device is in Park, or a PARK command is accepted and its round is still to come. (DESIGN CHOICE, log 82) -/
def State.parking (s : State) : Bool := s.parked || s.pw.parkAsked

/-! ### Finish tags (R277) -/

/-- A tag in lowest terms. -/
def Tag.lowest (t : Tag) : Tag := { num := t.num / Nat.gcd t.num t.den, den := t.den / Nat.gcd t.num t.den }

/-- Two tags added, exactly. -/
def Tag.plus (a b : Tag) : Tag := Tag.lowest { num := a.num * b.den + b.num * a.den, den := a.den * b.den }

/-- One tag is before another. -/
def Tag.before (a b : Tag) : Bool := decide (a.num * b.den < b.num * a.den)

/-- The larger of two tags. -/
def Tag.larger (a b : Tag) : Tag := if a.before b then b else a

/-! ### Registers (R279, R283) -/

/-- A refusal recorded: IK_LAST_REFUSAL, IK_EVT.REFUSED, the counter of refusals (R268). -/
def State.ikRefused (s : State) (n detail : Nat) : State :=
  ((s.setReg 0x0C0002 (BitVec.ofNat 16 (n * 128 + detail))).setBit 0x0C0001 0).count 3137 1

/-- IK_UTIL (units of 2^-16 of 307,200,000,000 steps/s, truncated). -/
def State.util (s : State) : Nat :=
  min 65535 (s.computeUse (s.admitted.map Prod.snd) * 65536 * 100 / (307200000000 * 12))

/-- IK_STATUS as it reads: SHED is stored, PENDING and DRAINING follow. -/
def State.ikStatus (s : State) : Word :=
  let pend := s.inst.any fun x => decide (x.2.pendShares ≠ [])
  let drain := ((List.range 24).filter fun f => decide ((s.frameAt f).st = 1)).length
  BitVec.ofNat 16 ((if s.bit 0x0C0000 15 then 0x8000 else 0) + (if pend then 0x4000 else 0) + drain)

/-- IK_FRAME of a frame. -/
def State.ikFrame (s : State) (f : Nat) : Word :=
  let n := (s.admitted.filter fun x => decide (frameOf x.2.reck = f)).length
  BitVec.ofNat 16 ((s.frameAt f).st * 16384 + min n 16383)

/-! ### Drains (R272, R465) -/

/-- IK_FRAME of a frame before a drain that begins now and after it. -/
def State.drainWords (s : State) (f : Nat) : Word × Word := (s.ikFrame f, (s.modFrame f fun x => { x with st := 1, back := false }).ikFrame f)

/-- A frame begins to drain, journaled with the origin that asked for it and the values given (R272, R448); an empty one only to leave
service (R460). The TARGET is its IK_FRAME register. -/
def State.drainAs (s : State) (f : Nat) (o : Origin) (w : Word × Word) : State :=
  if (s.frameAt f).st = 0 ∨ ((s.frameAt f).st = 2 ∧ (s.frameAt f).retire = true) then
    let s := s.modFrame f fun x => { x with st := 1, back := false }
    let s := s.count 3142 1
    s.journal { origin := o, target := .csr (0x0C0010 + f), old := w.1, new := w.2 }
  else s

/-- A frame begins to drain on this device's own account or its manager's (R272). -/
def State.drain (s : State) (f : Nat) (o : Origin) : State := s.drainAs f o (s.drainWords f)

/-- A frame drained to be recalibrated (R397, R458, R465), once no other is drained or powering up for that (R442). -/
def State.drainRecal (s : State) (f : Nat) : State :=
  if (List.range 24).any fun g => decide (g ≠ f) && (s.frameAt g).recal then s.modFrame f fun x => { x with recalWant := true }
  else (s.modFrame f fun x => { x with recal := true, recalWant := false }).drain f .self

/-- A frame that waits to be recalibrated is drained at a round, once no other is (R442). -/
def State.recalNext (s : State) : State :=
  match (List.range 24).find? fun f => (s.frameAt f).recalWant with
  | some f => s.drainRecal f
  | none => s

/-- A secondary's frame leaves service by itself (R378): its coaches are UNPROTECTED until a coach resync. -/
def State.unguard (s : State) (f : Nat) : State :=
  if s.leads then s
  else
    (s.admitted.filter fun x => decide (frameOf x.2.reck = f)).foldl (fun s x => s.modCoach x.1 fun k => { k with unprotected := true }) s

/-- A frame drained to leave service (R460). -/
def State.drainOut (s : State) (f : Nat) : State :=
  let s := s.unguard f
  (s.modFrame f fun x => { x with retire := true }).drain f .self

/-- A corrected error in a frame (R458): beyond ST_CORR_LIMIT within any hour the frame is drained and recalibrated, and the count
begins anew. (DESIGN CHOICE, log 189) -/
def State.corrected (s : State) (f : Nat) : State :=
  let s := s.internalError true
  let hour := 3600 * 2 ^ 48
  let recent := (s.frameAt f).corr.filter (fun t => decide (s.now < t + hour)) ++ [s.now]
  let lim := (s.reg 0x380004).toNat
  if lim ≠ 0 ∧ lim < recent.length then (State.unguard (s.modFrame f fun x => { x with corr := [] }) f).drainRecal f
  else s.modFrame f fun x => { x with corr := recent }

/-! ### Fallbacks (R265, R281, R282, R511) -/

/-- A fallback of coach c for period g (R281, R282): counted once, IK_EVT.FALLBACK, the next waybill's OVERRAN. -/
def State.fallback (s : State) (c g : Nat) : State :=
  let k := s.coach c
  if !k.valid ∨ k.fellBack = some g then s
  else
    let s := s.setCoach c { k with fellBack := some g, overran := true, ended := { k.ended with period := g, fallback := true } }
    (s.setBit 0x0C0001 3).bill k.inst lcFallbacks 1 (boundaryOf k.mul g)

/-- The padding posts of one board entry of a period (R511): zero samples to each block from `from_` on. -/
def State.padEntry (s : State) (src : Nat) (k : Coach) (g : Nat) (w : Word) (from_ : Nat) : State :=
  let b := fld w 0 12
  let n := s.boardBlocks b
  (List.range (n - from_)).foldl (fun s i =>
    s.applyPost { src := src, board := b, blk := from_ + i, gen := BitVec.ofNat 32 g, inst := k.inst, period := k.period,
                  pad := true, data := List.replicate 16 0#16 }) s

/-- Every contributing entry of a period whose job did not run is padded (R511). -/
def State.padPeriod (s : State) (c g : Nat) : State :=
  let k := s.coach c
  ((k.boardsIn g).filter fun w => w.getLsbD 15 && w.getLsbD 14).foldl (fun s w => s.padEntry k.reck k g w 0) s

/-! ### Uncorrectable groups (R215, R462, R463) -/

/-- Words of a coach's state area: a place for each channel that its program's coach size and its members allow. -/
def State.areaWords (s : State) (k : Coach) : Nat :=
  (s.progOf k).staged * k.members.foldl (fun n m => max n (m.slot + 1)) (s.progOf k).size

/-- The coach whose state in DRAM holds a word. -/
def State.stateOwner (s : State) (pa : Nat) : Option Nat :=
  (s.admitted.find? fun x => decide (x.2.stateBase ≤ pa) && decide (pa < x.2.stateBase + s.areaWords x.2)).map Prod.fst

/-- A poisoned group of a SOLO device's coach state written with zeros at the hand-off, and the next waybill's OVERRAN set
(R463). -/
def State.zeroGroups (s : State) (c : Nat) : State :=
  let k := s.coach c
  let bad := k.zeros.filter fun a => isBad s a
  let s := bad.foldl (fun s a => s.writeMem (a / 4 * 4) (List.replicate 4 0#16)) s
  s.modCoach c fun k => { k with zeros := [], overran := k.overran || decide (bad ≠ []) }

/-- A word of DRAM is found uncorrectable (R215, R463): its channel's event; on a SOLO device a group of a coach's state is to be written with
zeros at the coach's hand-off, or at once when no period of the coach is in progress. -/
def State.groupFound (s : State) (pa : Nat) : State :=
  let s := s.mcUncorr pa
  match s.stateOwner pa with
  | some c =>
    if s.role = 0 then
      let s := s.modCoach c fun k => { k with zeros := k.zeros ++ [pa / 4 * 4] }
      if (s.coach c).issued = none then s.zeroGroups c else s
    else s
  | none => s

/-- The groups of words found uncorrectable, each once; words of other memories are no groups. -/
def State.groupsFound (s : State) (l : List Nat) : State :=
  (noRepeats ((l.filter fun a => decide (regionOf a = .dram)).map fun a => a / 4 * 4)).foldl (fun s a => s.groupFound a) s

/-! ### Decisions (R254, R374) -/

/-- The device time by which a decision is to be applied, where it takes effect at a boundary: a best-effort job's issue belongs to its
round. (DESIGN CHOICE, log 131) -/
def State.effectOf (s : State) (d : Decision) : Option Nat :=
  match d with
  | .move c _ g => some (boundaryOf (s.coach c).mul g)
  | .merge _ b g => some (boundaryOf (s.coach b).mul g)
  | .rehome b _ g => some (boundaryOf ((periodMul (s.board b).period).getD 1) g)
  | .beIssue _ _ round => some ((round + 1) * 2 ^ 38)
  | .recal _ _ => none
  | .rekey _ _ => none
  | .rekeyed => none
  | .resolve _ _ _ => none

/-- A decision mirrored with its effect boundary (R254, R371, R374). -/
def State.decide_ (s : State) (d : Decision) : State :=
  s.mirrorOut false fun m len fv => .link 7 len m (d.sealed fv ++ (s.effectOf d).toList)

end Sys2Proof.Machine
end

