-- ==== Sys2Proof/Machine/Courier.lean ====
section
/-! DEFINITION. The courier (R208 to R211): channels, descriptors, rows and errors. -/
namespace Sys2Proof.Machine

/-- Where channel c of frame f has its registers. -/
def curBase (f c : Nat) : Nat := 0x200200 + f * 0x10000 + c % 16 * 8

/-- The reckoner channel c of frame f serves (R208). -/
def curReckoner (f c : Nat) : Nat := f * 8 + c % 16 / 2

/-- A descriptor (R208). -/
structure CurDesc where
  valid : Bool
  irq : Bool
  src : Nat
  dst : Nat
  len : Nat
  rows : Nat
  srcStride : Int
  dstStride : Int
  next : Nat
  reserved : Bool
  deriving DecidableEq, Repr

/-- A descriptor's 16 words read. -/
def curDesc (w : List Word) : CurDesc :=
  { valid := (wordAt w 0).getLsbD 15
    irq := (wordAt w 0).getLsbD 14
    src := wordsAt w 1 3
    dst := wordsAt w 4 3
    len := (wordAt w 7).toNat
    rows := (wordAt w 8).toNat
    srcStride := (BitVec.ofNat 32 (wordsAt w 9 2)).toInt
    dstStride := (BitVec.ofNat 32 (wordsAt w 11 2)).toInt
    next := wordsAt w 13 3
    reserved := decide (fld (wordAt w 0) 0 14 ≠ 0) || decide (2 ^ 40 ≤ wordsAt w 1 3) || decide (2 ^ 40 ≤ wordsAt w 4 3) }

/-- An address lies in a local store or frame store of frame f (R208). -/
def ownStore (f pa : Nat) : Bool :=
  match regionOf pa with
  | .frame g => decide (g = f)
  | .loc r => decide (r / 8 = f)
  | _ => false

/-- The descriptor is one a channel can perform (R210, code 1). -/
def CurDesc.ok (d : CurDesc) (f : Nat) : Bool :=
  d.valid && !d.reserved && decide (1 ≤ d.len) && decide (d.len ≤ 4096) && decide (1 ≤ d.rows) && decide (d.rows ≤ 1024) &&
    (decide (d.next = 0) || ownStore f d.next)

/-- Copy B of a steward pair's memory is brought to copy A, which holds the words (R454). -/
def courierPa (pa : Nat) : Nat := canonPa 0 pa

/-- One word's place: the error code of R210 it meets, if any. -/
def State.curPlace (s : State) (pa : Nat) : Option Nat :=
  match regionOf pa with
  | .dram => if dramBacked s pa then none else some 2
  | .frame f => if frameOn s f then none else some 5
  | .loc r => if frameOn s (r / 8) then none else some 5
  | .stew _ => none
  | _ => some 2

/-- The places of a row's words: the first error met. -/
def State.rowPlace (s : State) (a : Int) (len : Nat) : Option Nat :=
  if a < 0 then some 2
  else (List.range len).findSome? fun i =>
    let pa := a.toNat + i
    if 0x4F00000000 ≤ pa ∧ pa < 0x4F00040000 then some 2 else s.curPlace (courierPa pa)

/-- One row performed (R208, R210, R461): none with the error code where it cannot be. A local store's uncorrectable words
written back to DRAM leave as poisoned groups; any others stop the channel. (DESIGN CHOICE, log 208) -/
def State.curRow (s : State) (d : CurDesc) (i : Nat) : Except Nat State :=
  let a := (d.src : Int) + i * d.srcStride
  let b := (d.dst : Int) + i * d.dstStride
  match s.rowPlace a d.len with
  | some c => .error c
  | none =>
    match s.rowPlace b d.len with
    | some c => .error c
    | none =>
      let from_ := (List.range d.len).map fun k => courierPa (a.toNat + k)
      let back := (match regionOf (courierPa a.toNat) with | .loc _ => true | _ => false) && decide (regionOf (courierPa b.toNat) = .dram)
      let isStew := match regionOf (courierPa a.toNat) with | .stew _ => true | _ => false
      let badAt := (List.range d.len).filter fun k => isBad s (from_.getD k 0)
      if badAt ≠ [] ∧ !back ∧ !isStew then .error 3
      else
        let ws := from_.map s.readMem
        let toStew := match regionOf (courierPa b.toNat) with | .stew _ => true | _ => false
        let t :=
          if toStew then (List.range d.len).foldl (fun s k => s.writeMem (courierPa (b.toNat + k)) [wordAt ws k]) s
          else s.writeMem b.toNat ws
        let t := if back then badAt.foldl (fun t k => t.markBad (courierPa (b.toNat + k))) t else t
        .ok t

/-- The uncorrectable DRAM groups that row i of a descriptor meets are events of their channels (R215). -/
def State.rowUncorr (s : State) (d : CurDesc) (i : Nat) : State :=
  let a := ((d.src : Int) + i * d.srcStride).toNat
  s.groupsFound (((List.range d.len).map fun k => a + k).filter (isBad s))

/-- Rows i, i + 1, … performed, `n` of them at most; the error of the first that cannot be. -/
def State.curRows (s : State) (d : CurDesc) (i : Nat) : Nat → State × Option Nat
  | 0 => (s, none)
  | n + 1 =>
    match s.curRow d i with
    | .error c => (if c = 3 then s.rowUncorr d i else s, some c)
    | .ok t => t.curRows d (i + 1) n

/-- The channel's present descriptor, read from its own frame's store. -/
def State.curAt (s : State) (f c : Nat) : CurDesc :=
  curDesc (memWords s.mem (tblGet 0 s.cur (f * 16 + c % 16)) 16)

/-- The channel follows a chain. -/
def State.curBusy (s : State) (f c : Nat) : Bool := s.bit (curBase f c + 4) 15

/-- The channel's next descriptor address set. -/
def State.setCur (s : State) (f c a : Nat) : State := { s with cur := tblSet 0 s.cur (f * 16 + c % 16) a }

/-- Line CUR of the owning reckoner, counted (R209, R358). -/
def State.curLine (s : State) (f c : Nat) : State := (s.requestLine (reckoner (curReckoner f c)) 2).count (2688 + 8 * f + 7) 1

/-- The coach and period whose job a reckoner runs (R464). (DESIGN CHOICE, log 191) -/
def State.runsFor (s : State) (r : Nat) : Nat × Nat :=
  match s.admitted.find? fun x => decide (x.2.reck = r) && x.2.running.isSome with
  | some (c, k) => (c, k.running.getD 0)
  | none => (0xFFFF, 0)

/-- The channel stops on an error (R210): BUSY 0, ERR, ERRCODE, CUR. Code 3 is recorded, with the failing word and the coach and
period it staged (R461, R464). (DESIGN CHOICE, log 191) -/
def State.curStop (s : State) (f c code at_ : Nat) (of_ : Nat × Nat) : State :=
  let b := curBase f c + 4
  let w := putFld (putFld (s.reg b) 15 1 0) 4 4 code
  let s := (s.setReg b w).setBit b 13
  let s := ((s.setCur f c 0).curLine f c).count (2688 + 8 * f + 2) 1
  if code = 3 then
    s.record { severity := 1, unit := 2, code := 2, source := f * 16 + c % 16, coach := of_.1, addr := at_, period := of_.2 % 2 ^ 32 }
  else s

/-! ### The transfers of jobs (R208, R263) -/

/-- The channel that the next transfer of a reckoner's jobs takes: its two in turn (R208). (DESIGN CHOICE, log 197) -/
def State.turnOf (s : State) (r : Nat) : Nat := r % 8 * 2 + (tblGet false s.ik.turns r).toNat

/-- The turn passes to the reckoner's other channel. -/
def State.turned (s : State) (r : Nat) : State :=
  { s with ik := { s.ik with turns := tblSet false s.ik.turns r (!tblGet false s.ik.turns r) } }

/-- A chain of n descriptors has moved that many words for a reckoner's job (R208, R209, R358): DONE, COUNT and the counters; whether one of
its descriptors asks for CUR is free. (DESIGN CHOICE, log 197) -/
def State.chainDone (s : State) (r n words : Nat) : State :=
  let f := frameOf r
  let c := s.turnOf r
  let b := curBase f c
  let s := (s.setReg (b + 5) (s.reg (b + 5) + BitVec.ofNat 16 n)).setBit (b + 4) 14
  let s := ((s.count (2688 + 8 * f) words).count (2688 + 8 * f + 1) n).timerEvent (srcDescriptor r) n
  let s := if Config.freeBool s.fv then s.curLine f c else s
  s.drawn.turned r

/-- A chain of a reckoner's job stops at an uncorrectable word (R210, R461). -/
def State.chainStopped (s : State) (r at_ : Nat) (of_ : Nat × Nat) : State := (s.curStop (frameOf r) (s.turnOf r) 3 at_ of_).turned r

/-- The courier of a powered frame works on this channel. -/
def State.curRuns (s : State) (f c : Nat) : Bool := frameOn s f && s.curBusy f c

/-- What the present descriptor comes to: performed whole, or the rows before the failing one and the error code. (DESIGN CHOICE, log 207) -/
def State.curTry (s : State) (f c : Nat) : State × Option Nat :=
  let a := tblGet 0 s.cur (f * 16 + c % 16)
  let d := s.curAt f c
  if !ownStore f a then (s, some 1)
  else if (List.range 16).any fun i => isBad s (a + i) then (s, some 3)
  else if !d.ok f then (s, some 1)
  else s.curRows d 0 d.rows

/-- The first uncorrectable word that the present descriptor meets: of itself, else of its rows in order. -/
def State.curBadAt (s : State) (f c : Nat) : Nat :=
  let a := tblGet 0 s.cur (f * 16 + c % 16)
  let d := s.curAt f c
  let row := fun (i : Nat) => (List.range d.len).map fun k => courierPa (((d.src : Int) + i * d.srcStride).toNat + k)
  ((((List.range 16).map (a + ·)).find? (isBad s)).or ((List.range d.rows).findSome? fun i => (row i).find? (isBad s))).getD 0

/-- A descriptor's writes are performed (R209): COUNT, CUR where asked; the next descriptor is read, or the chain ends. -/
def descriptorComplete (f : Fin 24) (c : Fin 16) (s : State) : State :=
  if !s.curRuns f c then s
  else
    let d := s.curAt f c
    let r := s.curTry f c
    match r.2 with
    | some _ => s
    | none =>
      let s := r.1
      let b := curBase f c
      let s := s.setReg (b + 5) (s.reg (b + 5) + 1)
      let s := (s.count (2688 + 8 * f.val) (d.len * d.rows)).count (2688 + 8 * f.val + 1) 1
      let s := s.timerEvent (srcDescriptor (curReckoner f c)) 1
      let s := if d.irq then s.curLine f c else s
      if d.next = 0 then ((s.clrBit (b + 4) 15).setBit (b + 4) 14).setCur f c 0 else s.setCur f c d.next

/-- A channel stops at a descriptor it cannot perform (R210): words of earlier rows stay written. (DESIGN CHOICE, log 191) -/
def chainError (f : Fin 24) (c : Fin 16) (s : State) : State :=
  if !s.curRuns f c then s
  else
    let r := s.curTry f c
    match r.2 with
    | some code => r.1.curStop f c code (s.curBadAt f c) (s.runsFor (curReckoner f c))
    | none => s

/-- GO (R208): no effect while BUSY = 1. -/
def courierGo (f c : Nat) (s : State) : State :=
  if s.curBusy f c then s
  else (s.setCur f c (s.regs (curBase f c) 3)).setBit (curBase f c + 4) 15

/-- ABORT (R210): the channel stops after the row in progress with error 4; how many rows it had written is free. (DESIGN CHOICE, log 66) -/
def courierAbort (f c : Nat) (s : State) : State :=
  if !s.curBusy f c then s
  else
    let d := s.curAt f c
    let n := Config.freeNat s.fv % (d.rows + 1)
    let s := s.drawn
    let r := if ownStore f (tblGet 0 s.cur (f * 16 + c % 16)) && d.ok f then s.curRows d 0 n else (s, none)
    r.1.curStop f c 4 0 (0, 0)

/-- A write of FR_CUR_CTRL. (DESIGN CHOICE, log 209) -/
def courierCtrl (f c : Nat) (w : Word) (s : State) : State :=
  let s := if w.getLsbD 15 then courierGo f c s else s
  if w.getLsbD 14 then courierAbort f c s else s

end Sys2Proof.Machine
end

