-- ==== Sys2Proof/Machine/Check.lean ====
section
/-! DEFINITION. Fencing and heartbeat (R386), comparator self-test (R455, R456), steward checkstop (R452), and the loss of
unbroken checking (R476, R477). -/
namespace Sys2Proof.Machine

/-- The heartbeat stops, the egress gate closes and one FENCED leaves, in one instant (R386). (DEDUCED, log 58) -/
def State.fence (s : State) : State :=
  let s := if s.tw.gateClosed then s else s.linkSend 11 0 []
  { s with tw := { s.tw with hbStopped := true, gateClosed := true, fenced := true } }

/-- A steward pair of the image's active pairs kicks (R386): ignored after a checkstop (R452), and from any other writer. (DEDUCED, log 51; DEDUCED, log 57; DEDUCED, log 58) -/
def kick (p : Nat) (s : State) : State :=
  let s := { s with pw := { s.pw with wakeKicks := s.pw.wakeKicks.filter fun q => q != p } }
  if s.tw.kickOff ∨ s.pw.scanTaken = true ∨ !s.pairActive p then s
  else { s with tw := { s.tw with kickAt := s.now, hbStopped := false, gateClosed := s.tw.fenced } }

/-- 20 µs without KICK (R386). -/
def fenceTimeout (s : State) : State :=
  if !s.tw.hbStopped && usPassed s.tw.kickAt (s.time + s.incUnits) 20 then s.fence else s

/-- Compare points of powered steward pairs, as bits of ST_CHK_FAIL. (DEDUCED, log 47) -/
def State.pairMask (s : State) : Word :=
  [0, 1, 2, 3].foldl (fun m p => if s.domainOn (24 + p) then m ||| (0xF#16 <<< (4 * p)) else m) 0#16

/-- Of the bits of ST_CHK_FAIL, those of active pairs. (DEDUCED, log 47) -/
def State.activeMask (s : State) : Word :=
  [0, 1, 2, 3].foldl (fun m p => if s.pairActive p then m ||| (0xF#16 <<< (4 * p)) else m) 0#16

/-- The steward compare points that stay silent in a self-test of them (R455, R456): their bits of ST_CHK_FAIL, and the pairs that
pass. -/
def stewardTest (silent : Word) (s : State) : State :=
  let f := (s.reg 0x380002 &&& ~~~s.pairMask) ||| (silent &&& s.pairMask)
  let ok := [0, 1, 2, 3].foldl (fun m p =>
    if s.domainOn (24 + p) && decide (silent &&& (0xF#16 <<< (4 * p)) = 0#16) then m + 2 ^ p else m) 0
  (s.setReg 0x380002 f).setReg 0x380000 (putFld (s.reg 0x380000) 0 4 ok)

/-- What a self-test that has found `hit` silent steward points, and the digest comparator silent or not, makes of eligibility, and the
report of a silent one (R456). A later one in which every comparator passes ends SECONDARY_ONLY. -/
def State.tested (s : State) (hit : Word) (digest : Bool) : State :=
  let bad := decide (hit &&& s.activeMask ≠ 0#16) || digest
  let pass := decide (s.reg 0x380002 = 0#16) && !s.bit 0x380000 14
  let s := if bad then s.setBit 0x380000 15 else if pass then s.clrBit 0x380000 15 else s
  if hit ≠ 0#16 ∨ digest = true then (s.record { severity := 1, unit := 11, code := 8 }).deviceEvent else s

/-- The self-test of start-up stage 3: the steward compare points (R455). -/
def selfTestPoints (silent : Word) (s : State) : State := (stewardTest silent s).tested (silent &&& s.pairMask) false

/-- The self-test of start-up stage 8: the digest comparator (R455). -/
def selfTestDigest (digest : Bool) (s : State) : State := (s.putBit 0x380000 14 digest).tested 0#16 digest

/-- A comparator self-test (R455, R456): `silent` the steward compare points that stay silent, `digest` the digest comparator. (DESIGN CHOICE, log 56) -/
def selfTest (silent : Word) (digest : Bool) (s : State) : State :=
  ((stewardTest silent s).putBit 0x380000 14 digest).tested (silent &&& s.pairMask) digest

/-- A write of ST_CHK_CTRL.SELFTEST (R455): ignored while a self-test runs; which comparators stay silent is free. (DESIGN CHOICE, log 56) -/
def selfTestWrite (s : State) : State :=
  if s.bit 0x380000 13 then s
  else selfTest (Config.freeWord s.fv) (Config.freeBool s.fv) s.drawn

/-- A steward pair enters checkstop (R452): KICK is ignored from then on, the record is kept in the Night Porter, vector 1. (DEDUCED, log 57) -/
def State.pairCheckstop (s : State) (p : Nat) : State :=
  let s := s.modEng (stewardPair p) fun x => { x with run := .checkstop }
  let (t, s) := s.readTime
  let r : ErrRec := { severity := 3, unit := 1, code := 4, source := p }
  let s := if s.pairActive p then s.setBit 0x380000 12 else s
  { s with tw := { s.tw with kickOff := true }, jr := { s.jr with npRecord := some (r.words t) } }.deviceEvent.internalError false

/-- CHECK_BROKEN becomes 1 (R476, R477, R479): entered once in the journal; a PRIMARY starts the handover when its twin can take over. -/
def State.breakChecking (s : State) : State :=
  if s.bit 0x3C0000 15 then s
  else
    let s := (s.setBit 0x3C0000 15).setBit 0x3C0001 2
    let s := s.journalBit .debugPort 0x3C0000 15
    if s.role = 1 then s.deviceEvent.startHandover else s

end Sys2Proof.Machine
end

