-- ==== Sys2Proof/Machine/Csr.lean ====
section
/-! DEFINITION. Reading and writing the registers (R7 to R10, R288 to R290, R481, R482, R508): what each register of CSR space
reads, which bits of it take a write, its groups, its journaling, and who may write. -/
namespace Sys2Proof.Machine

/-! ### Layout (R481) -/

/-- The power domain a block's registers lie in (R406); none for the always-on Night Porter. (DESIGN CHOICE, log 54) -/
def regDomain (off : Nat) : Option Nat :=
  if off < 0x010000 then some 29
  else if off < 0x020000 then none
  else if off < 0x080000 then some 29
  else if off < 0x0C0000 then some 28
  else if off < 0x0F0000 then some 29
  else if off < 0x100000 then some 31
  else if off < 0x140000 then some 30
  else if off < 0x200000 then some 29
  else if off < 0x380000 then some ((off - 0x200000) / 0x10000)
  else some 29

/-- The block a register lies in has power. (DESIGN CHOICE, log 54) -/
def State.regOn (s : State) (off : Nat) : Bool :=
  match regDomain off with
  | none => true
  | some d => s.domainOn d

/-- The frame and the word of a frame-block register. -/
def frameWord (off : Nat) : Option (Nat × Nat) :=
  if 0x200000 ≤ off ∧ off < 0x380000 then some ((off - 0x200000) / 0x10000, (off - 0x200000) % 0x10000) else none

/-- The group a register belongs to (R290): its lowest word and its size; a register alone is its own group. -/
def regGroup (off : Nat) : Nat × Nat :=
  let within := fun (b n : Nat) => decide (b ≤ off) && decide (off < b + n)
  let pick := fun (l : List (Nat × Nat)) => (l.find? fun g => within g.1 g.2).getD (off, 1)
  if 0x2000000 ≤ off then
    let b := (off - 0x2000000) / 0x8000 * 0x8000 + 0x2000000
    pick [(b, 3), (b + 8, 3), (b + 16, 3)]
  else
    match frameWord off with
    | some (f, o) =>
      let fb := 0x200000 + f * 0x10000
      if 0x100 ≤ o ∧ o < 0x180 then
        let b := fb + o / 16 * 16
        pick [(b + 1, 2), (b + 3, 2)]
      else if 0x200 ≤ o ∧ o < 0x280 then pick [(fb + o / 8 * 8, 3)]
      else if 0x300 ≤ o ∧ o < 0x400 then
        let b := fb + o / 32 * 32
        pick [(b + 2, 4), (b + 6, 4), (b + 10, 4), (b + 14, 4)]
      else (off, 1)
    | none =>
      if 0x010100 ≤ off ∧ off < 0x010200 then
        let b := off / 16 * 16
        pick [(b, 6), (b + 6, 4)]
      else if 0x010420 ≤ off ∧ off < 0x010440 then (off / 2 * 2, 2)
      else if 0x0E1000 ≤ off ∧ off < 0x0E1000 + 245 * 8 then pick [(off / 8 * 8, 6)]
      else if 0x0E8000 ≤ off ∧ off < 0x0F0000 then (off / 4 * 4, 4)
      else pick [(0x000008, 4), (0x00000C, 2), (0x010000, 6), (0x010008, 6), (0x010010, 6), (0x010020, 6), (0x010030, 4),
        (0x030004, 4), (0x038002, 2), (0x038004, 2), (0x0E0008, 6), (0x0F0008, 6)]

/-- The higher words of this group read as latched (access code RL, R7; FR_CUR_DESC by its field's text, R211); those of any other read
their present values. (DEDUCED, log 198) -/
def latchedGroup (base : Nat) : Bool :=
  if 0x2000000 ≤ base then true
  else
    match frameWord base with
    | some (_, o) => (decide (0x100 ≤ o) && decide (o < 0x180)) || (decide (0x200 ≤ o) && decide (o < 0x280)) ||
        (decide (0x300 ≤ o) && decide (10 ≤ (o - 0x300) % 32))
    | none =>
      !(decide (base = 0x010008) || decide (base = 0x010010) || decide (base = 0x010030) ||
        (decide (0x010100 ≤ base) && decide (base < 0x010200)))

/-! ### What a register reads -/

/-- Any bit of a word set. -/
def anySet (w : Word) : Nat := if w = 0#16 then 0 else 1

/-- ID_EVT_SUM (R485). -/
def State.evtSum (s : State) : Word :=
  let mc := (List.range 8).any fun c => decide (rowsLog2 s c ≠ 0) && decide (s.reg (0x100001 + c * 0x1000) ≠ 0#16)
  BitVec.ofNat 16 (anySet (s.reg 0x010019) + 2 * anySet (s.reg 0x010400) + 4 * anySet (s.reg 0x020001) +
    8 * anySet (s.reg 0x030001) + 16 * anySet (s.reg 0x038001) + 32 * anySet (s.reg 0x080101) +
    64 * anySet (s.reg 0x0C0001) + 128 * anySet (s.reg 0x0E0001) + 256 * anySet (s.reg 0x0F0002) +
    (if mc then 512 else 0) + 1024 * anySet (s.reg 0x140001) + 2048 * anySet (s.reg 0x3C0001))

/-- Engines halted, each steward of a pair counted (R476, DB_STATUS). -/
def State.haltedCount (s : State) : Nat :=
  s.eng.foldl (fun n x => if x.2.run = .halted then n + (if x.1 < 192 then 1 else 2) else n) 0

/-- DB_STATUS: CHECK_BROKEN is stored, the rest follows. -/
def State.dbStatus (s : State) : Word :=
  let n := s.haltedCount
  BitVec.ofNat 16 ((if s.bit 0x3C0000 15 then 0x8000 else 0) + (if s.params 11 % 2 = 1 then 0x4000 else 0) +
    (if s.pw.dbgSel.isSome then 0x2000 else 0) + (if n ≠ 0 then 0x1000 else 0) + n % 256)

/-- P and Q of *Retention draw* (R416): the rows, in quarter degrees and µA. (DESIGN CHOICE, log 65) -/
def drawRows : List (Int × Nat × Nat) :=
  [(-160, 2400, 100), (0, 2500, 160), (100, 2600, 240), (200, 2800, 400), (280, 3000, 620), (340, 3200, 900),
   (380, 3400, 1150), (420, 3600, 1450), (460, 4000, 1850)]

/-- Linear interpolation between two rows, rounded up (R416). -/
def interpUp (t t0 t1 : Int) (a b : Nat) : Nat :=
  (a : Int) + (((b : Int) - a) * (t - t0) + (t1 - t0 - 1)) / (t1 - t0) |>.toNat

/-- P(T) and Q(T) at a temperature in quarter degrees (R416). Above the last row the spec states no draw: the last row is
continued. (DESIGN CHOICE, log 65) -/
def drawAt (t : Int) : List (Int × Nat × Nat) → Nat × Nat
  | [] => (0, 0)
  | [r] => (r.2.1, r.2.2)
  | r :: q :: l =>
    if t ≤ r.1 then (r.2.1, r.2.2)
    else if t ≤ q.1 then (interpUp t r.1 q.1 r.2.1 q.2.1, interpUp t r.1 q.1 r.2.2 q.2.2)
    else drawAt t (q :: l)

/-- Slots enabled (R415). -/
def State.slotsOn (s : State) : List Nat := (List.range 16).filter fun k => s.bit (0x010410 + k) 15

/-- The predicted retention draw at a temperature (R416, R417). -/
def State.drawFor (s : State) (t : Int) : Nat :=
  let r := drawAt t drawRows
  r.1 + s.slotsOn.length * r.2

/-- GATED and the other words of a frame-block register as they read. -/
def frameRead (s : State) (f o off : Nat) : Word :=
  if 0x100 ≤ o ∧ o < 0x180 then
    let e := reckoner (f * 8 + (o - 0x100) / 16)
    let x := s.engAt e
    match (o - 0x100) % 16 with
    | 0 => BitVec.ofNat 16 ((if x.meter.running then 0x8000 else 0) + (if x.meterHeld then 0x4000 else 0) +
        (if x.meter.overrun then 0x2000 else 0))
    | 1 => x.meter.budget.extractLsb' 0 16
    | 2 => x.meter.budget.extractLsb' 16 16
    | 3 => x.meter.charge.extractLsb' 0 16
    | 4 => x.meter.charge.extractLsb' 16 16
    | 5 =>
      let full := (s.readMem (ownBase e + 0x1F000 + x.iqTail.toNat * 0x80)).getLsbD 15
      BitVec.ofNat 16 ((if full then 0x8000 else 0) + (if x.iqDrop then 0x4000 else 0) + x.iqTail.toNat)
    | _ => 0#16
  else if 0x200 ≤ o ∧ o < 0x280 then
    if o % 8 = 3 ∨ 6 ≤ o % 8 then 0#16 else s.reg off
  else if 0x300 ≤ o ∧ o < 0x400 then
    let t := (o - 0x300) / 32
    if o % 32 = 1 then (if s.gateOpen f t then s.reg off ||| 0x0800#16 else s.reg off)
    else if o % 32 < 0x12 then s.reg off
    else 0#16
  else 0#16

/-- Registers of CSR space outside the frames that hold what is stored for them. -/
def plainReg (off : Nat) : Bool :=
  let r := fun (a b : Nat) => decide (a ≤ off) && decide (off ≤ b)
  r 0x000000 0x000004 || r 0x00000C 0x00000D || r 0x000010 0x000013 || r 0x010008 0x01000D || r 0x010010 0x010015 ||
  r 0x010019 0x010019 || r 0x010020 0x010028 || r 0x010030 0x010033 || (r 0x010100 0x0101FF && decide (off % 16 < 12)) ||
  (r 0x010200 0x01020F && decide (off % 4 < 3)) || r 0x010400 0x010402 || r 0x010404 0x010404 || r 0x010410 0x01043F ||
  r 0x020001 0x02000A || r 0x020010 0x020027 || r 0x020040 0x02005F || r 0x030000 0x030001 || r 0x030004 0x030007 ||
  r 0x038000 0x038006 || r 0x080000 0x080000 || r 0x080101 0x080101 || r 0x0C0001 0x0C0002 ||
  r 0x0C0004 0x0C0005 || r 0x0E0001 0x0E0003 || r 0x0E0005 0x0E0006 || r 0x0E0008 0x0E000D || r 0x0F0001 0x0F0003 ||
  r 0x0F0005 0x0F0005 || r 0x0F0008 0x0F000D || (r 0x100000 0x107FFF && decide (off % 0x1000 < 2)) || r 0x108000 0x108000 ||
  r 0x140001 0x140002 || r 0x380000 0x380000 || r 0x380002 0x380004 || r 0x380100 0x3802FF || r 0x3C0001 0x3C0002

/-- TW_UNEXPLAINED: unexplained differences of the last 60 s (R383). -/
def State.unexplained (s : State) : Nat := (s.tw.unexpl.filter fun t => decide (s.now < t + 60 * 2 ^ 48)).length

/-- TW_STATUS: ELIGIBLE and HB_IN follow (R369, R386). -/
def State.twStatus (s : State) : Word :=
  let hb := s.tw.peer.hbSeen && !usPassed s.tw.peer.lastHb s.now 50
  let w := putFld (s.reg 0x0F0000) 12 1 (if s.eligible then 1 else 0)
  putFld (putFld w 11 1 (if s.tw.peer.eligible then 1 else 0)) 9 1 (if hb then 1 else 0)

/-- GH_PORT_STATUS (R220): AN_DONE is 1 with AN = 0, once the image has set the mode. -/
def State.portStatus (s : State) (off : Nat) : Word :=
  let ports := [2, 2, 4, 8].getD (fld (s.reg 0x080000) 0 3) 0
  if (tblFind s.cf.active 64).isSome ∧ s.bit 0x080000 3 = false ∧ off - 0x080010 < ports then s.reg off ||| 0x2000#16 else s.reg off

/-- The present value of a register of CSR space (device time apart, which only a reading gives). -/
def csrPeek (s : State) (off : Nat) : Word :=
  if !s.regOn off then 0#16
  else
    match frameWord off with
    | some (f, o) => frameRead s f o off
    | none =>
      if off = 0x000001 then s.reg off ||| BitVec.ofNat 16 (fld (Config.fuse 4) 0 1 * 16)
      else if 0x000008 ≤ off ∧ off ≤ 0x00000B then Config.fuse (off - 8)
      else if 0x080010 ≤ off ∧ off ≤ 0x080017 then s.portStatus off
      else if plainReg off then s.reg off
      else if off = 0x000005 then s.evtSum
      else if off = 0x010018 then putFld (putFld (s.reg off) 14 1 (if s.timeInUse then 1 else 0)) 11 1 (if s.slaved then 1 else 0)
      else if off = 0x010403 then BitVec.ofNat 16 (s.drawFor (s.reg 0x010402).toInt)
      else if off = 0x020000 then
        putFld (s.reg off) 0 5 ((List.range 24).filter fun f => frameOn s f).length
      else if off = 0x02000B then
        BitVec.ofNat 16 (((List.range 16).filter fun f => frameOn s f).foldl (fun n f => n + 2 ^ f) 0)
      else if off = 0x02000C then
        s.reg off ||| BitVec.ofNat 16 (((List.range 8).filter fun f => frameOn s (16 + f)).foldl (fun n f => n + 2 ^ f) 0)
      else if 0x030100 ≤ off ∧ off < 0x030340 then
        match tblFind s.cf.active (off - 0x030100) with
        | some a => a.pver
        | none => 0#16
      else if off = 0x080100 then putFld (s.reg off) 0 11 s.gh.stash.length
      else if off = 0x0C0000 then s.ikStatus
      else if off = 0x0C0003 then BitVec.ofNat 16 s.util
      else if 0x0C0010 ≤ off ∧ off < 0x0C0028 then s.ikFrame (off - 0x0C0010)
      else if off = 0x0E0000 then
        BitVec.ofNat 16 ((if s.snapBusy then 0x8000 else 0) + (if s.ty.lrOn then 0x4000 else 0) + s.recordsHeld)
      else if 0x0E1000 ≤ off ∧ off < 0x0E1000 + 245 * 8 then
        let g := (off - 0x0E1000) / 8
        let k := off % 8
        if k < 6 then wordAt (toWords (tblGet 0 s.sn.stamps g) 6) k
        else if k = 6 then s.groupStatus g
        else 0#16
      else if 0x0E2000 ≤ off ∧ off < 0x0E4000 then
        let i := (off - 0x0E2000) / 2
        if 3184 ≤ i ∨ !s.domainOn (groupDomain (groupOf i)) then 0#16
        else if off % 2 = 0 then ctrCtrl (s.ctrAt i)
        else if isProgrammable i then (s.ctrAt i).ev.zeroExtend 16
        else 0#16
      else if 0x0E8000 ≤ off ∧ off < 0x0F0000 then
        let i := (off - 0x0E8000) / 8
        let k := off % 8
        if k < 4 then wordAt (toWords (s.ctrValue i) 4) k else wordAt (toWords (tblGet 0 s.sn.snap i) 4) (k - 4)
      else if off = 0x0F0000 then s.twStatus
      else if off = 0x0F0004 then BitVec.ofNat 16 s.unexplained
      else if off = 0x140000 then BitVec.ofNat 16 s.openBoards
      else if off = 0x3C0000 then s.dbStatus
      else 0#16

/-- What a word of the MSI-X table reads as it is stored, and the reverse: a vector's mask bit, bit 0 of its word 6, is 1 after
reset. (PRESUMED, log 55) -/
def msixWord (off : Nat) (w : Word) : Word := if off % 8 = 6 then w ^^^ 1#16 else w

/-- Any word the host can address, present value: CSR space, the MSI-X table and PBA, the portals; else 0 (R288, R294). -/
def wordPeek (s : State) (off : Nat) : Word :=
  if off < 0x400000 then csrPeek s off
  else if 0x1000000 ≤ off ∧ off < 0x1004000 then msixWord off (s.reg off)
  else if 0x1008000 ≤ off ∧ off < 0x1008080 then s.reg off
  else if 0x2000000 ≤ off ∧ off < 0x3000000 ∧ (off - 0x2000000) % 0x8000 < 0x1B then
    portalRead s ((off - 0x2000000) / 0x8000) ((off - 0x2000000) % 0x8000)
  else 0#16

/-! ### Group shadows (R290) -/

/-- An agent's number among the shadows. -/
def agentIdx : Agent → Nat
  | .eng n => n
  | .act p _ => 192 + p.val
  | .host => 200
  | .debug => 201

/-- Where an agent's shadow of a register is held. -/
def shadowKey (ag : Agent) (off : Nat) : Nat := agentIdx ag * 0x4000000 + off

/-- A word latched for an agent. -/
def State.latch (s : State) (ag : Agent) (off : Nat) (w : Word) : State :=
  { s with fn := { s.fn with latched := tblSet none s.fn.latched (shadowKey ag off) (some w) } }

/-- The words of a list latched from a register on. -/
def State.latchAll (s : State) (ag : Agent) (off : Nat) : List Word → State
  | [] => s
  | w :: ws => (s.latch ag off w).latchAll ag (off + 1) ws

/-- Every shadow of one agent, or of all, cleared (R290). -/
def State.clearShadows (s : State) (keep : Nat → Bool) : State :=
  { s with fn := { s.fn with
      latched := s.fn.latched.filter fun x => keep x.1
      held := s.fn.held.filter fun x => keep x.1 } }

/-- CAPTURED of a capture register is cleared by the read of its lowest word (R333). -/
def State.captureRead (s : State) (off : Nat) : State :=
  if off = 0x010020 then s.clrBit 0x010026 15
  else
    match frameWord off with
    | some (f, o) =>
      if frameOn s f ∧ 0x300 ≤ o ∧ o < 0x400 ∧ o % 32 = 14 then s.clrBit (off - 13) 13 else s
    | none => s

/-- A register read by an agent, with what the read itself does: a group's lowest word latches the rest, a higher word with access
code RL returns what is latched, device time is read, a capture is consumed (R7, R290, R321, R333). A register in a domain without
power reads 0 (R406). -/
def csrRead (ag : Agent) (off : Nat) (s : State) : Word × State :=
  if decide (off < 0x400000) && !s.regOn off then (0#16, s)
  else
  let s := match trafficCounter off with
    | some i => s.traffic i
    | none => s
  let g := regGroup off
  if g.2 = 1 ∨ (off ≠ g.1 ∧ latchedGroup g.1 = false) then (wordPeek s off, s)
  else if off = g.1 then
    if off = 0x010000 then
      let (t, s) := s.readTime
      let ws := toWords t 6
      (wordAt ws 0, s.latchAll ag (off + 1) (ws.drop 1))
    else
      let ws := (List.range g.2).map fun i => wordPeek s (off + i)
      (wordAt ws 0, (s.latchAll ag (off + 1) (ws.drop 1)).captureRead off)
  else
    match tblGet none s.fn.latched (shadowKey ag off) with
    | some w => (w, s)
    | none =>
      if g.1 = 0x010000 then
        let (t, s) := s.readTime
        (wordAt (toWords t 6) (off - g.1), s)
      else (wordPeek s off, s)

/-! ### Who may write (R482) -/

/-- A reckoner may write its own frame's block and the control, event and value registers of its own counters. -/
def mayWrite (ag : Agent) (off : Nat) : Bool :=
  match ag with
  | .eng r =>
    if 192 ≤ r then true
    else
      match frameWord off with
      | some (f, _) => decide (f = r / 8)
      | none =>
        if 0x0E2000 ≤ off ∧ off < 0x0E4000 then decide ((off - 0x0E2000) / 2 / 14 = r)
        else if 0x0E8000 ≤ off ∧ off < 0x0F0000 then decide ((off - 0x0E8000) / 8 / 14 = r) && decide (off % 8 < 4)
        else false
  | _ => true

/-- The origin of an agent's write (R441, R482): a steward's is that of the act it carries out, the device's own where none is
named. (DESIGN CHOICE, log 50) -/
def agentOrigin : Agent → Origin
  | .eng _ => .self
  | .act _ o => o
  | .host => .manager
  | .debug => .debugPort

/-! ### Plain registers -/

/-- Which bits of a register take the written value, are cleared by writing 1, are set by the image alone, and whether it
has a J field (R7). -/
structure RegInfo where
  rw : Word := 0#16
  w1c : Word := 0#16
  ri : Word := 0#16
  j : Bool := false
  deriving DecidableEq, Repr

/-- The access codes of the registers that stand alone and have no further effect of their own. -/
def regInfo (off : Nat) : Option RegInfo :=
  let at_ := fun (a : Nat) => decide (off = a)
  let r := fun (a b : Nat) => decide (a ≤ off) && decide (off ≤ b)
  if r 0x000010 0x000013 || at_ 0x010028 then some { rw := 0xFFFF#16 }
  else if at_ 0x010018 then some { rw := 0x3000#16 }
  else if at_ 0x010019 then some { w1c := 0x00F8#16 }
  else if at_ 0x010026 then some { w1c := 0x4000#16 }
  else if at_ 0x010027 then some { rw := 0x83FF#16 }
  else if r 0x010100 0x0101FF && decide (off % 16 = 10) then some { rw := 0xF800#16 }
  else if r 0x010100 0x0101FF && decide (off % 16 = 11) then some { w1c := 0xC000#16 }
  else if r 0x010200 0x01020F && decide (off % 4 = 0) then some { rw := 0xFC00#16, j := true }
  else if r 0x010200 0x01020F && decide (off % 4 = 1) then some { rw := 0x07FF#16, j := true }
  else if r 0x010200 0x01020F && decide (off % 4 = 2) then some { w1c := 0x4000#16 }
  else if at_ 0x010400 then some { w1c := 0x000F#16 }
  else if at_ 0x010401 then some { w1c := 0x4000#16 }
  else if at_ 0x010402 then some { rw := 0xFFFF#16, j := true }
  else if at_ 0x010404 then some { w1c := 0xFFFF#16 }
  else if r 0x010410 0x01041F then some { rw := 0x80FF#16, j := true }
  else if at_ 0x020001 then some { w1c := 0x00FF#16 }
  else if at_ 0x020002 then some { rw := 0xFCFF#16, j := true }
  else if at_ 0x020004 || at_ 0x020005 then some { ri := 0xFFFF#16 }
  else if at_ 0x02000A then some { ri := 0x001F#16 }
  else if at_ 0x030001 || at_ 0x038001 then some { w1c := 0x000F#16 }
  else if at_ 0x080000 then some { ri := 0x000F#16, j := true }
  else if r 0x080010 0x080017 then some { w1c := 0x0001#16 }
  else if at_ 0x080101 || at_ 0x0C0001 then some { w1c := 0x00FF#16 }
  else if at_ 0x0C0004 then some { rw := 0x8000#16, ri := 0x007F#16, j := true }
  else if at_ 0x0C0005 then some { ri := 0xFFFF#16, j := true }
  else if at_ 0x0E0001 then some { w1c := 0x001F#16 }
  else if at_ 0x0F0000 then some { ri := 0x0020#16 }
  else if at_ 0x0F0002 then some { w1c := 0x0FFF#16 }
  else if r 0x100000 0x107FFF && decide (off % 0x1000 = 0) then some { ri := 0xF01F#16 }
  else if r 0x100000 0x107FFF && decide (off % 0x1000 = 1) then some { w1c := 0x000F#16 }
  else if at_ 0x108000 then some { ri := 0x00FF#16, j := true }
  else if at_ 0x140001 then some { w1c := 0x003F#16 }
  else if at_ 0x380004 then some { rw := 0xFFFF#16, j := true }
  else if at_ 0x3C0001 then some { w1c := 0x0007#16 }
  else none

/-- ID_SCRATCH_0 to _3 (R484). -/
def scratchReg (off : Nat) : Bool := decide (0x000010 ≤ off) && decide (off ≤ 0x000013)

/-- No field of a write holds a reserved encoding (R9). (DEDUCED, log 52) -/
def State.legal (s : State) (off : Nat) (w : Word) : Bool :=
  if off = 0x010027 then decide (1 ≤ fld w 0 10) && decide (fld w 0 10 ≤ 999)
  else if 0x010410 ≤ off ∧ off < 0x010420 then
    let bank := fld w 0 8
    decide (bank < 200) && !(w.getLsbD 15 &&
      s.slotsOn.any fun k => decide (k ≠ off - 0x010410) && decide (fld (s.reg (0x010410 + k)) 0 8 = bank))
  else if off = 0x020002 then decide (fld w 11 5 ≤ 24)
  else if off = 0x02000A then decide (2 ≤ fld w 0 5) && decide (fld w 0 5 ≤ 20)
  else if off = 0x080000 then decide (fld w 0 3 ≤ 3)
  else if off = 0x0C0004 then decide (50 ≤ fld w 0 7) && decide (fld w 0 7 ≤ 95)
  else if off = 0x108000 then decide (fld w 0 8 ≠ 0)
  else if 0x100000 ≤ off ∧ off < 0x108000 ∧ off % 0x1000 = 0 then
    decide (fld w 12 4 ≤ 4) && (decide (fld w 0 5 = 0) || (decide (14 ≤ fld w 0 5) && decide (fld w 0 5 ≤ 18)))
  else true

/-- A change, or a write that changes nothing, or a refusal, entered where the register has a J field or the debug port
writes, ID_SCRATCH apart (R9, R443, R479, R484, R508). (DEDUCED, log 51; DEDUCED, log 53) -/
def State.journalWrite (s : State) (ag : Agent) (j : Bool) (off : Nat) (old new : Word) (st : Status) (d : Nat) : State :=
  if j || (decide (ag = .debug) && !scratchReg off) then
    s.journal { origin := agentOrigin ag, target := .csr off, old := old, new := new, status := st, detail := d }
  else s

/-- A plain register written (R7, R9, R508). (DEDUCED, log 52) -/
def plainWrite (ag : Agent) (off : Nat) (i : RegInfo) (w : Word) (s : State) : State :=
  let old := s.reg off
  if !s.legal off w then s.journalWrite ag i.j off old w .badArgument 0x58
  else
    let takes := if agentOrigin ag = .boot ∨ agentOrigin ag = .image then i.rw ||| i.ri else i.rw
    if (old ^^^ w) &&& i.ri &&& ~~~takes ≠ 0#16 then s.journalWrite ag i.j off old w .notPermitted 0x43
    else
    let new := (w &&& takes) ||| (old &&& ~~~takes &&& ~~~(w &&& i.w1c))
    (s.setReg off new).journalWrite ag i.j off old new .ok 0

/-! ### Registers with an effect of their own -/

/-- A timer's control written (R9, R335, R342, R343): SRC 3 is reserved. -/
def timerCtrl (f t : Nat) (w : Word) (s : State) : State :=
  if fld w 12 2 = 3 then s
  else
    let s := s.setReg (tmrBase f t) (w &&& 0xFFFC#16)
    let s := if w.getLsbD 1 then s.capture f t else s
    s.timerCommit f t

/-- CAPNOW (R343): the count is captured, the control's other bits as they are written. -/
def capNow (f t : Nat) (w : Word) (s : State) : State := if frameOn s f then timerCtrl f t w s else s

/-- A frame-block register that stands alone written. -/
def frameWrite (f o : Nat) (w : Word) (s : State) : State :=
  if !frameOn s f then s
  else if 0x100 ≤ o ∧ o < 0x180 then
    let e := reckoner (f * 8 + (o - 0x100) / 16)
    if (o - 0x100) % 16 = 0 ∧ w.getLsbD 13 then s.modEng e fun x => { x with meter := { x.meter with overrun := false } }
    else if (o - 0x100) % 16 = 5 ∧ w.getLsbD 14 then s.modEng e fun x => { x with iqDrop := false }
    else s
  else if 0x200 ≤ o ∧ o < 0x280 then
    let c := (o - 0x200) / 8
    if o % 8 = 3 then courierCtrl f c w s
    else if o % 8 = 4 then s.setReg (curBase f c + 4) (s.reg (curBase f c + 4) &&& ~~~(w &&& 0x6000#16))
    else s
  else if 0x300 ≤ o ∧ o < 0x400 then
    let t := (o - 0x300) / 32
    if o % 32 = 0 then timerCtrl f t w s
    else if o % 32 = 1 then s.setReg (tmrBase f t + 1) (s.reg (tmrBase f t + 1) &&& ~~~(w &&& 0xD000#16))
    else s
  else s

/-- What the journal holds for a self-test asked for: the field reads 0 (OLD), and the write gives it 1 (NEW). (DESIGN CHOICE, log 199) -/
def State.selfTestEntry (s : State) (ag : Agent) (w : Word) : State := s.journalWrite ag true 0x380001 0#16 (w &&& 0x8000#16) .ok 0

/-- A write of TW_CTRL (R369, R386): NO_PRIMARY is a J field; KICK counts from a steward. -/
def twCtrlWrite (ag : Agent) (w : Word) (s : State) : State :=
  let old := s.reg 0x0F0001
  let new := w &&& 0x8000#16
  let s := (s.setReg 0x0F0001 new).journalWrite ag true 0x0F0001 old new .ok 0
  match ag with
  | .eng n => if 192 ≤ n ∧ w.getLsbD 0 then kick (n - 192) s else s
  | .act p _ => if w.getLsbD 0 then kick p.val s else s
  | _ => s

/-- A write of the MSI-X table (R317): clearing a vector's mask while its PBA bit is set sends its message. (PRESUMED, log 55) -/
def msixWrite (off : Nat) (w : Word) (s : State) : State :=
  let s := s.setReg off (msixWord off w)
  if (off - 0x1000000) % 8 = 6 then s.msixSend ((off - 0x1000000) / 8) else s

/-- A register that stands alone written by an agent that may write it. -/
def writeOne (ag : Agent) (off : Nat) (w : Word) (s : State) : State :=
  if 0x2000000 ≤ off then
    if ag = .host ∧ off < 0x3000000 then portalWrite ((off - 0x2000000) / 0x8000) ((off - 0x2000000) % 0x8000) w s else s
  else if 0x1000000 ≤ off then if ag = .host ∧ off < 0x1004000 then msixWrite off w s else s
  else
    match frameWord off with
    | some (f, o) => frameWrite f o w s
    | none =>
      match regInfo off with
      | some i =>
        let old := s.reg off
        let s := plainWrite ag off i w s
        if off = 0x010018 ∧ fld old 12 2 ≠ fld (s.reg off) 12 2 then s.setBit 0x010019 6
        else if 0x010100 ≤ off ∧ off < 0x010200 ∧ off % 16 = 10 then s.alarmCommit ((off - 0x010100) / 16)
        else s
      | none =>
        if off = 0x0E0002 then lrHeadWrite w s
        else if off = 0x0E0004 then if w.getLsbD 15 then snapGo s else s
        else if off = 0x0F0001 then twCtrlWrite ag w s
        else if off = 0x380001 then
          let s := s.selfTestEntry ag w
          if w.getLsbD 15 then selfTestWrite s else s
        else if 0x0E2000 ≤ off ∧ off < 0x0E4000 then
          let i := (off - 0x0E2000) / 2
          if off % 2 = 0 then ctrCtrlWrite i w s else ctrEvselWrite i w s
        else s

/-! ### Commits of groups (R290) -/

/-- A commit of a frame timer's group: its compare value, interval or count (R335, R344). -/
def timerGroup (f o base : Nat) (ws : List Word) (s : State) : State :=
  if !frameOn s f then s
  else
    let t := (o - 0x300) / 32
    let k := o % 32
    if k = 2 then (s.setRegs base ws).timerCommit f t
    else if k = 6 then s.setRegs base ws
    else if k = 10 then
      if s.bit (tmrBase f t) 15 ∨ fld (s.reg (tmrBase f t)) 12 2 = 0 then s else s.setRegs base ws
    else s

/-- A group committed with its words. (DEDUCED, log 39) -/
def commitGroup (ag : Agent) (base : Nat) (ws : List Word) (s : State) : State :=
  if 0x2000000 ≤ base then
    if ag = .host then baseCommit ((base - 0x2000000) / 0x8000) ((base - 0x2000000) % 0x8000) ws s else s
  else
    match frameWord base with
    | some (f, o) =>
      if 0x200 ≤ o ∧ o < 0x280 then
        if frameOn s f then s.setRegs base [wordAt ws 0, wordAt ws 1, wordAt ws 2 &&& 0x00FF#16] else s
      else if 0x300 ≤ o ∧ o < 0x400 then timerGroup f o base ws s
      else s
    | none =>
      if base = 0x010008 then setCommit s (agentOrigin ag) ws
      else if base = 0x010010 then incCommit s ws
      else if base = 0x010030 then gstartCommit s ws
      else if 0x010100 ≤ base ∧ base < 0x010200 then
        let s := s.setRegs base ws
        if base % 16 = 0 then s.alarmCommit ((base - 0x010100) / 16) else s
      else if 0x0E8000 ≤ base ∧ base < 0x0F0000 ∧ base % 8 = 0 then counterCommit ((base - 0x0E8000) / 8) ws s
      else s

/-- The words a commit takes (R290): those the agent holds, the present value for the others, the last as written. -/
def State.groupWords (s : State) (ag : Agent) (base n : Nat) (w : Word) : List Word :=
  (List.range n).map fun i =>
    if i + 1 = n then w
    else (tblGet none s.fn.held (shadowKey ag (base + i))).getD (wordPeek s (base + i))

/-- A write to a group (R290): a lower word is held in the agent's shadow; the highest commits, and the agent's held words
are discarded. -/
def groupWrite (ag : Agent) (base n off : Nat) (w : Word) (s : State) : State :=
  if off + 1 < base + n then
    { s with fn := { s.fn with held := tblSet none s.fn.held (shadowKey ag off) (some w) } }
  else
    let ws := s.groupWords ag base n w
    let held := (List.range n).foldl (fun t i => tblDrop t (shadowKey ag (base + i))) s.fn.held
    commitGroup ag base ws { s with fn := { s.fn with held := held } }

/-- A word of a portal's base that takes no write: the agent is not the host, the instance is FREE or the ring is enabled (R294). -/
def State.baseShut (s : State) (ag : Agent) (off : Nat) : Bool :=
  let g := regGroup off
  decide (0x2000000 ≤ off) && decide (g.2 ≠ 1) &&
    (decide (ag ≠ .host) || !s.baseOpen ((g.1 - 0x2000000) / 0x8000) ((g.1 - 0x2000000) % 0x8000))

/-- The writes of a register that are journaled where they act: the plain registers, TW_CTRL, ST_CHK_CTRL and the group NP_SET. -/
def selfJournaled (off : Nat) : Bool :=
  ((frameWord off).isNone && (regInfo off).isSome) || decide (off = 0x0F0001) || decide (off = 0x380001) ||
    decide ((regGroup off).1 = 0x010008) || scratchReg off

/-- The debug port's write of any other register entered once it acts: the register, or the words of its group, as they read before and
after it (R443, R479). (DEDUCED, log 53) -/
def State.debugEntry (t s : State) (off : Nat) : State :=
  let g := regGroup off
  if selfJournaled off ∨ off + 1 < g.1 + g.2 then t
  else t.journalGroup .debugPort .ok 0 g.1 ((List.range g.2).map fun i => (wordPeek s (g.1 + i), wordPeek t (g.1 + i)))

/-- A register written by an agent (R290, R294, R482): an agent that may not write it, and a block without power, ignore the
write. -/
def csrWrite (ag : Agent) (off : Nat) (w : Word) (s : State) : State :=
  if !mayWrite ag off ∨ (off < 0x400000 ∧ !s.regOn off) ∨ s.baseShut ag off = true then s
  else
    let g := regGroup off
    let t := if g.2 = 1 then writeOne ag off w s else groupWrite ag g.1 g.2 off w s
    if ag = .debug then t.debugEntry s off else t

/-- A request of 1 to 8 octets at a byte address of the register space lies in one aligned 8-byte unit (R289). -/
def inUnit (byte n : Nat) : Bool := decide (0 < n) && decide (byte / 8 = (byte + n - 1) / 8)

/-- A write request at a byte address of the register space (R289): it acts on the registers both of whose bytes it covers, in
ascending order; one of the host that crosses an aligned 8-byte unit is an Unsupported Request. -/
def barWrite (ag : Agent) (byte : Nat) (octets : List Byte) (s : State) : State :=
  let n := octets.length
  if ag = .host ∧ s.fn.perstLow = true then s
  else if !inUnit byte n then if ag = .host then s.unsupported else s
  else
    let first := (byte + 1) / 2
    let last := (byte + n) / 2
    (List.range (last - first)).foldl (fun s i =>
      let k := 2 * (first + i) - byte
      csrWrite ag (first + i) (octets.getD (k + 1) 0#8 ++ octets.getD k 0#8) s) s

/-- The registers from one on read in ascending order (R289). -/
def csrReads (ag : Agent) (off : Nat) : Nat → State → List Word × State
  | 0, s => ([], s)
  | n + 1, s =>
    let (w, s) := csrRead ag off s
    let (ws, s) := csrReads ag (off + 1) n s
    (w :: ws, s)

/-- A read request at a byte address of the register space (R289, R290): every register it covers, in ascending order; the host is
answered, with an Unsupported Request where the request crosses an aligned 8-byte unit. -/
def barRead (ag : Agent) (byte n : Nat) (s : State) : State :=
  if ag = .host ∧ s.fn.perstLow = true then s
  else if !inUnit byte n then if ag = .host then s.unsupported.send .unsupported else s
  else
    let r := csrReads ag (byte / 2) ((byte + n - 1) / 2 + 1 - byte / 2) s
    if ag = .host then r.2.send (.read r.1) else r.2

end Sys2Proof.Machine
end

