-- ==== Sys2Proof/Machine/Access.lean ====
section
/-! DEFINITION. An engine's accesses: translation (R187 to R199), the caches (R200 to R202, R510), the store buffer
(R96 to R98, R203), loads and stores. -/
namespace Sys2Proof.Machine

/-- The kind of an access (R188). A maintenance access, and one that writes
a line back, is translated as a load and exempt from the R check (R202). -/
inductive Kind where
  | fetch | load | store | atomic | maint | wback
  deriving DecidableEq, Repr

/-- A translated word: physical address (canonical), virtual address, device page, through the data cache, whether the
next line lies in the same page (R199), and whether it was named in the own-local-store range (R191). -/
structure Phys where
  pa : Nat
  va : Addr
  dev : Bool
  cached : Bool
  nextOk : Bool
  own : Bool := false
  deriving DecidableEq, Repr

/-- What diverts an instruction: an exception to a kernel vector with its code, sub-code, length, address and saved
words (R139), a machine check with its sub-code and address (R141), or UNCORR_LOAD of the write-back of a line whose error is of the data
cache's own array (R510). -/
inductive Exc where
  | kern (code sub len : Nat) (bad : Option Addr) (tw : List Word)
  | mc (sub : Nat) (bad : Option Addr)
  | wback (line : Nat) (bad : Option Addr)
  deriving DecidableEq, Repr

/-- How the translation of one word ends (R188). -/
inductive XRes where
  | ok (p : Phys)
  | refill
  | access (reason : Nat)
  | walk
  deriving DecidableEq, Repr

/-- An entry translates va under an ASID (R188). -/
def TlbEntry.covers (x : TlbEntry) (asid : BitVec 12) (va : Addr) : Bool :=
  x.valid && (x.g || x.asid == asid) && (va.toNat / 2 ^ x.size.toNat == x.va.toNat / 2 ^ x.size.toNat)

/-- The matching entry with its index, if there is one; the overlap rule of R195 leaves at most one. -/
def tlbLookup (t : Tbl TlbEntry) (asid : BitVec 12) (va : Addr) : Option (Nat × TlbEntry) :=
  t.find? fun x => x.2.covers asid va

/-- The physical address an entry gives (R188). -/
def TlbEntry.phys (x : TlbEntry) (va : Addr) : Nat :=
  let n := 2 ^ x.size.toNat
  (x.pa.toNat - x.pa.toNat % n + va.toNat % n) % 2 ^ 40

/-- The attributes an access needs are there (R188). -/
def TlbEntry.permits (x : TlbEntry) (k : Kind) (user : Bool) : Bool :=
  (match k with
   | .fetch => x.x
   | .load => x.r
   | .store => x.wr
   | .atomic => x.r && x.wr
   | .maint => true
   | .wback => true) && (!user || x.u)

/-- The region checks of the physical map (R188, R190, R191): the reason refused, if refused. `c1` is a page with C = 1. Where
KIND and another reason both apply, KIND is reported. (DESIGN CHOICE, log 170) -/
def regionCheck (s : State) (x : Engine) (k : Kind) (user c1 : Bool) (pa : Nat) : Option Nat :=
  let r := regionOf pa
  let offMem := k = .fetch ∨ k = .atomic
  match r with
  | .none => some 2
  | .board => if offMem ∨ user = true ∨ k = .store then some 1 else none
  | .csr => if offMem ∨ user = true then some 1 else none
  | .host => if offMem then some 1 else if x.ctrl.hvalid && !(s.dmaOff && decide (k = .load)) then none else some 3
  | .dram => if k = .atomic ∧ c1 = true then some 1 else if backed s pa then none else some 2
  | _ => if backed s pa then none else some 2

/-- The TLB and the ASID an access is translated with: fetch keeps those of the last ISYNC or return (R95, R128). (DEDUCED, log 172) -/
def Engine.mmu (x : Engine) (k : Kind) : Tbl TlbEntry × BitVec 12 :=
  match k with
  | .fetch => (x.ftlb, x.fasid)
  | _ => (x.tlb, x.ctrl.asid)

/-- Fetch takes up the TLB and the ASID as they stand: the effect of ISYNC on translation (R95, R100, R128, R142). (DEDUCED, log 172) -/
def Engine.sync (x : Engine) : Engine := { x with ftlb := x.tlb, fasid := x.ctrl.asid }

/-- A physical address of the own-local-store range (R191). -/
def inOwn (pa : Nat) : Bool := decide (0x4F00000000 ≤ pa) && decide (pa < 0x5000000000)

/-- One word translated (R188). -/
def translateWord (s : State) (e : EngId) (va : Addr) (k : Kind) : XRes :=
  let x := s.engAt e
  let user := x.psr.mode == .user
  let finish (raw : Nat) (dt c nextOk : Bool) : XRes :=
    let pa := canonPa e raw
    let dev := dt || (regionOf pa).isDevice
    match regionCheck s x k user c pa with
    | some r => .access r
    | none =>
      if x.psr.walk && dev then .walk
      else .ok { pa := pa, va := va, dev := dev, cached := c && !dev && decide (regionOf pa = .dram), nextOk := nextOk, own := inOwn raw }
  if va.toNat ≥ 0xC10000000000 then .access 2
  else if va.toNat ≥ 0xC00000000000 then
    if user then .access 0
    else finish (va.toNat - 0xC00000000000) false false false
  else if va.toNat ≥ 0x800000000000 && user then .access 0
  else
    match tlbLookup (x.mmu k).1 (x.mmu k).2 va with
    | none => if x.psr.walk then .walk else .refill
    | some (_, t) =>
      if !t.permits k user then .access 0
      else finish (t.phys va) t.dev (t.c && !t.dev)
        ((va.toNat / 16 + 1) * 16 / 2 ^ t.size.toNat == va.toNat / 2 ^ t.size.toNat)

/-- The addresses of an access of z words (R118). -/
def accessVas (va : Addr) (z : Nat) : List Addr := (List.range z).map fun i => va + BitVec.ofNat 48 i

/-- The access type CAUSE.SUB gives (R139, R190): 0 fetch, 1 load, 2 store or atomic. -/
def Kind.typ : Kind → Nat
  | .fetch => 0
  | .load => 1
  | .store => 2
  | .atomic => 2
  | .maint => 1
  | .wback => 1

/-- The row of *Physical regions* a translated word lies in, which R189 compares: the own-local-store range is a row of its own. (DESIGN CHOICE, log 169) -/
def Phys.row (p : Phys) : Nat :=
  if p.own then 8
  else match regionOf p.pa with
    | .dram => 0
    | .frame _ => 1
    | .loc _ => 2
    | .stew _ => 3
    | .board => 4
    | .csr => 5
    | .host => 6
    | .none => 7

/-- A whole access translated before any word is touched (R189): a walk fault, then a refill, then a refusal, each of
the lowest-addressed word that raises it, then a span over two regions, at the lowest-addressed word. (DESIGN CHOICE, log 169) -/
def translate (s : State) (e : EngId) (vas : List Addr) (k : Kind) : Except Exc (List Phys) :=
  let rs := vas.map fun v => (v, translateWord s e v k)
  match rs.find? (fun r => r.2 == .walk) with
  | some r => .error (.mc 1 (some r.1))
  | none =>
    match rs.find? (fun r => r.2 == .refill) with
    | some r => .error (.kern 1 k.typ 0 (some r.1) [])
    | none =>
      match rs.find? (fun r => match r.2 with | .access _ => true | _ => false) with
      | some (v, .access reason) => .error (.kern 2 (reason * 4 + k.typ) 0 (some v) [])
      | _ =>
        let ps := rs.filterMap fun r => match r.2 with | .ok p => some p | _ => none
        match ps with
        | [] => .ok []
        | p :: _ =>
          if ps.all fun q => q.row == p.row then .ok ps
          else .error (.kern 2 (4 + k.typ) 0 (some p.va) [])

/-! ### The data cache -/

/-- The line that holds a physical word. -/
def lineOf (pa : Nat) : Nat := pa / 16

/-- The lines of the set of a line (256 sets, 4 ways, R200). -/
def setLines {α : Type} (f : α → Nat) (l : List α) (line : Nat) : List α := l.filter fun x => f x % 256 == line % 256

/-- A dirty line reaches memory; a group still holding a poisoned word is written as poisoned (R201, R510). -/
def writeLine (s : State) (d : DLine) : State :=
  let s := s.writeMem (d.line * 16) d.data
  d.bad.foldl (fun s i => s.markBad (d.line * 16 + i)) s

/-- A line read from memory, its poisoned words marked (R510). -/
def readLine (s : State) (line : Nat) : DLine :=
  { line := line, dirty := false, data := memWords s.mem (line * 16) 16
    bad := (List.range 16).filter fun i => isBad s (line * 16 + i) }

/-- The line that a write-back of d would report (R510). -/
def DLine.lost (d : DLine) : Option Nat := if d.dirty && decide (d.own ≠ []) then some d.line else none

/-- The line that a new line would replace: one of its set, which one is free; none while the set has room (R200). (DESIGN CHOICE, log 10) -/
def victimOf (s : State) (e : EngId) (line : Nat) : Option DLine :=
  let set := setLines DLine.line (s.engAt e).dcache line
  if 4 ≤ set.length then set[Config.freeNat s.fv % 4]? else none

/-- A line leaves the cache for a new one, written back if dirty (R200, R201). -/
def evictLine (s : State) (e : EngId) (d : DLine) : State :=
  ((if d.dirty then writeLine s d else s).modEng e fun x => { x with dcache := x.dcache.filter fun c => c.line != d.line }).drawn

/-- A line brought into the cache in place of another of a full set (R200, R201). A group of the line that reads as
uncorrectable is an event (R215, R510). (DESIGN CHOICE, log 10) -/
def allocLine (s : State) (e : EngId) (line : Nat) : State :=
  if (s.engAt e).dcache.any fun d => d.line == line then s
  else
    let s' := match victimOf s e line with
      | some d => evictLine s e d
      | none => s
    let d := readLine s' line
    let s' := s'.groupsFound (d.bad.map fun i => line * 16 + i)
    s'.modEng e fun x => (({ x with dcache := d :: x.dcache }).count (perfKeys e) 6 1)

/-- A prefetch of a line: dropped where it would evict a line with an error of the cache's own array, since it raises nothing (R199, R510). (DESIGN CHOICE, log 10) -/
def prefetchLine (s : State) (e : EngId) (line : Nat) : State :=
  if ((victimOf s e line).bind DLine.lost).isSome then s else allocLine s e line

/-- A cacheable access finds or brings its line; after a miss the next line of the page may be prefetched (R199, R200). (DESIGN CHOICE, log 10) -/
def touchLine (s : State) (e : EngId) (p : Phys) : State :=
  let line := lineOf p.pa
  if (s.engAt e).dcache.any fun d => d.line == line then s
  else
    let s := allocLine s e line
    if p.nextOk && backed s ((line + 1) * 16) then
      if Config.freeBool s.fv then prefetchLine s.drawn e (line + 1) else s.drawn
    else s

/-- The line with an error of the cache's own array that an access has evicted, of the engine before it and after (R510). -/
def evictedLost (x y : Engine) : Option Nat :=
  (x.dcache.find? fun d => d.lost.isSome && !(y.dcache.any fun c => c.line == d.line && decide (c.own ≠ []))).map DLine.line

/-- A word of the cache with its poison mark. -/
def cacheWord (x : Engine) (pa : Nat) : Word × Bool :=
  match x.dcache.find? fun d => d.line == lineOf pa with
  | some d => (d.data.getD (pa % 16) 0#16, d.bad.contains (pa % 16))
  | none => (0#16, false)

/-- Word i of a line written; it clears the word's poison mark (R510). -/
def DLine.store (d : DLine) (i : Nat) (w : Word) : DLine :=
  { d with dirty := true, data := d.data.set i w, bad := d.bad.filter fun j => j != i, own := d.own.filter fun j => j != i }

/-- A word written into a line that is in the cache. -/
def cacheStore (x : Engine) (pa : Nat) (w : Word) : Engine :=
  { x with dcache := x.dcache.map fun d => if d.line == lineOf pa then d.store (pa % 16) w else d }

/-! ### The store buffer -/

/-- A store-buffer entry writes a physical word. -/
def SbEntry.has (b : SbEntry) (pa : Nat) : Bool := decide (b.pa ≤ pa) && decide (pa < b.pa + b.words.length)

/-- A buffered cacheable store's word: into the line that the store has brought in (R200, R203); where that has been evicted since,
the line is brought, written and evicted again at once. (DESIGN CHOICE, log 10) -/
def storeCached (s : State) (e : EngId) (pa : Nat) (w : Word) : State :=
  if (s.engAt e).dcache.any fun d => d.line == lineOf pa then s.modEng e fun x => cacheStore x pa w
  else writeLine s ((readLine s (lineOf pa)).store (pa % 16) w)

/-- Numbered words of a list. -/
def numbered (ws : List Word) : List (Nat × Word) := (List.range ws.length).zip ws

/-- The origin of the act a steward's program carries out: which one is its program's to know, and free. (DESIGN CHOICE, log 50) -/
def freeOrigin (fv : Nat) : Origin :=
  match Config.freeNat fv % 6 with
  | 0 => .boot
  | 1 => .image
  | 2 => .manager
  | 3 => .instance_ (Config.freeNat fv / 6 % 512)
  | 4 => .self
  | _ => .twin

/-- Who makes an engine's store to a register: the engine, or a steward for the act it carries out (R441, R482). -/
def State.storeAgent (s : State) (e : EngId) : Agent :=
  if isReckoner e then .eng e.val else .act ⟨(e.val - 192) % 4, by omega⟩ (freeOrigin s.fv)

/-- One entry performed at its target. -/
def performEntry (s : State) (e : EngId) (b : SbEntry) : State :=
  if b.cached && !b.writeBack then (numbered b.words).foldl (fun s w => storeCached s e (b.pa + w.1) w.2) s
  else
    match regionOf b.pa with
    | .csr =>
      let ag := s.storeAgent e
      (numbered b.words).foldl (fun s w => csrWrite ag (b.pa + w.1 - 0x6000000000) w.2 s) (if isReckoner e then s else s.drawn)
    | .host =>
      s.hostStore b.inst (2 * (b.pa - 0x8000000000)) b.words
    | .board => s
    | .none => s
    | _ => b.bad.foldl (fun s i => s.markBad (b.pa + i)) (s.writeMem b.pa b.words)

/-- The oldest entry drains (R96); nothing happens to an empty buffer. -/
def drainOne (s : State) (e : EngId) : State :=
  match (s.engAt e).sb with
  | [] => s
  | b :: bs => performEntry (s.modEng e fun x => { x with sb := bs }) e b

/-- The n oldest entries drain in program order. -/
def drainN (s : State) (e : EngId) : Nat → State
  | 0 => s
  | n + 1 => drainN (drainOne s e) e n

/-- The whole buffer drains. -/
def drainAll (s : State) (e : EngId) : State := drainN s e (s.engAt e).sb.length

/-- An entry enters the buffer; while the buffer is full the oldest drains first (R96). -/
def pushEntry (s : State) (e : EngId) (b : SbEntry) : State :=
  let full := decide (8 ≤ (s.engAt e).sb.length)
  let s := if full then (drainOne s e).modEng e fun x => x.count (perfKeys e) 8 1 else s
  s.modEng e fun x => { x with sb := x.sb ++ [b] }

/-- The first words of a store that lie at consecutive physical places, at most 16 (R96). -/
def firstRun (p : Phys) (r : List (Phys × Word)) : List (Phys × Word) :=
  (((List.range 15).zip r).takeWhile fun q => q.2.1.pa == p.pa + q.1 + 1).map (·.2)

/-- A store split into runs of consecutive places, one store-buffer entry each (R96); `n` bounds their number. -/
def storeRuns : Nat → List (Phys × Word) → List (Phys × List Word)
  | 0, _ => []
  | _, [] => []
  | n + 1, (p, w) :: r =>
    let run := firstRun p r
    (p, w :: run.map (·.2)) :: storeRuns n (r.drop run.length)

/-- The store-buffer entries a store of words at permitted places makes, under a host instance: one per run of at most 16
consecutive words, in address order (R96, R216); all but the first continue the store. -/
def storeEntries (inst : Nat) (ps : List Phys) (ws : List Word) : List SbEntry :=
  let rs := storeRuns ps.length (ps.zip ws)
  ((List.range rs.length).zip rs).map fun r =>
    { pa := r.2.1.pa, words := r.2.2, inst := inst, cached := r.2.1.cached, more := decide (r.1 ≠ 0), dev := r.2.1.dev }

/-- A store enters the buffer, one entry per 16 words in address order (R96). -/
def storeWords (s : State) (e : EngId) (ps : List Phys) (ws : List Word) : State :=
  (storeEntries (s.engAt e).ctrl.hinst.toNat ps ws).foldl (fun s b => pushEntry s e b) s

/-- The lines of a store's cacheable words found or brought in (R200). (DESIGN CHOICE, log 10) -/
def touchStores (s : State) (e : EngId) (ps : List Phys) : State :=
  (ps.filter Phys.cached).foldl (fun s p => touchLine s e p) s

/-- A store of translated words: its lines found or brought in, then its entries in the buffer; UNCORR_LOAD of a line it evicts (R200, R510). (DEDUCED, log 190) -/
def storeAccess (s : State) (e : EngId) (ps : List Phys) (ws : List Word) : Except Exc State :=
  let t := touchStores s e ps
  match evictedLost (s.engAt e) (t.engAt e) with
  | some line => .error (.wback line none)
  | none => .ok (storeWords t e ps ws)

/-- How a load meets the buffer (R97): read memory, forwarded from the entries of one store, or wait until n entries have
drained. -/
inductive SbHit where
  | memory
  | forward (bs : List SbEntry)
  | drain (n : Nat)
  deriving DecidableEq, Repr

/-- The buffered stores, oldest first, each as its entries (R96). -/
def sbStores : List SbEntry → List (List SbEntry)
  | [] => []
  | b :: bs =>
    match sbStores bs with
    | [] => [[b]]
    | g :: gs => if (g.head?.map (·.more)).getD false then (b :: g) :: gs else [b] :: g :: gs

/-- The youngest buffered store that writes any of the words, with the entries up to its end; none when no store does. -/
def youngestStore (ps : List Phys) (sb : List SbEntry) : Option (Nat × List SbEntry) :=
  ((sbStores sb).foldl (fun a g =>
    (a.1 + g.length, if g.any fun b => ps.any fun p => b.has p.pa then some (a.1 + g.length, g) else a.2)) (0, none)).2

/-- The buffer's answer to a load (R97, R98). -/
def sbAnswer (x : Engine) (ps : List Phys) : SbHit :=
  if ps.any fun p => p.dev then .drain x.sb.length
  else
    match youngestStore ps x.sb with
    | none => .memory
    | some (n, g) =>
      if ps.all fun p => g.any fun b => b.has p.pa && !b.writeBack then .forward g else .drain n

/-- The word that the entries of a store write to a physical place. -/
def storedWord (bs : List SbEntry) (pa : Nat) : Word :=
  bs.foldl (fun w b => if b.has pa then b.words.getD (pa - b.pa) 0#16 else w) 0#16

/-- The entries up to the youngest device access, which every younger access waits for (R203). -/
def devPlace (sb : List SbEntry) : Nat :=
  ((List.range sb.length).zip sb).foldl (fun n b => if b.2.dev then b.1 + 1 else n) 0

/-- One word read at its target with its uncorrectable mark; a register read may change the device. -/
def readTarget (s : State) (e : EngId) (p : Phys) : Word × Bool × State :=
  if p.cached then
    let s := touchLine s e p
    let r := cacheWord (s.engAt e) p.pa
    (r.1, r.2, s)
  else
    match regionOf p.pa with
    | .csr => let r := csrRead (.eng e.val) (p.pa - 0x6000000000) s; (r.1, false, r.2)
    | .board => (boardWindow s (p.pa - 0x5000000000), false, s)
    | .host => (0#16, false, s)
    | .none => (0#16, false, s)
    | _ => (s.readMem p.pa, isBad s p.pa, s)

/-- Words read at their targets in ascending order: the words, the first uncorrectable one, the device after. -/
def readTargets (s : State) (e : EngId) : List Phys → List Word × Option Addr × State
  | [] => ([], none, s)
  | p :: ps =>
    let r := readTarget s e p
    let t := readTargets r.2.2 e ps
    (r.1 :: t.1, if r.2.1 then some p.va else t.2.1, t.2.2)

/-- A load of translated words not in the host window (R97, R98, R459, R510): the words, or UNCORR_LOAD, of a word it reads or of a line
that it evicts. (DEDUCED, log 190) -/
def loadWords (s : State) (e : EngId) (ps : List Phys) : Except Exc (List Word) × State :=
  let s := drainN s e (if ps = [] then 0 else devPlace (s.engAt e).sb)
  match sbAnswer (s.engAt e) ps with
  | .forward bs => (.ok (ps.map fun p => storedWord bs p.pa), s)
  | h =>
    let s := match h with
      | .drain n => (drainN s e n).modEng e fun x =>
          x.count (perfKeys e) 9 (if (ps.any fun p => p.dev) || n == 0 then 0 else 1)
      | _ => s
    let r := readTargets s e ps
    match r.2.1 with
    | some v => (.error (.mc 3 (some v)), s)
    | none =>
      match evictedLost (s.engAt e) (r.2.2.engAt e) with
      | some line => (.error (.wback line none), s)
      | none => (.ok r.1, r.2.2)

end Sys2Proof.Machine
end

