-- ==== Sys2Proof/Machine/Hooks.lean ====
section
/-! DEFINITION. The post tracker of a job (R71, R75, R168) and what the rest of the device does when an engine's job starts and
ends, overruns, meets an open board or a machine check, and when an engine halts or checkstops. -/
namespace Sys2Proof.Machine

/-! ### The post tracker -/

/-- Board entry c of a waybill (R264): USED, CONTRIB and the board number. -/
def boardEntry (t : Tracker) (c : Nat) : Bool × Bool × Nat :=
  let w := wordAt t.waybill (24 + c)
  (t.active && w.getLsbD 15, w.getLsbD 14, fld w 0 12)

/-- The job's generation (R69, R264). -/
def Tracker.gen (t : Tracker) : Long := BitVec.ofNat 32 (wordsAt t.waybill 3 2)
/-- The job's instance. -/
def Tracker.inst (t : Tracker) : Nat := fld (wordAt t.waybill 0) 0 9
/-- The job's period code. -/
def Tracker.period (t : Tracker) : Nat := fld (wordAt t.waybill 0) 13 3
/-- Blocks the job has posted to entry c. -/
def Tracker.count (t : Tracker) (c : Nat) : Nat := tblGet 0 t.posted c

/-- The post of a block of an entry, with the tracker's board, block and generation attached (R71). -/
def trackerPost (t : Tracker) (src board blk : Nat) (pad : Bool) (data : List Word) : Post :=
  { src := src, board := board, blk := blk, gen := t.gen, inst := t.inst, period := t.period, pad := pad, data := data }

/-- The padding posts of a job (R75): every entry posted to or marked contributing, each block not yet posted, zeros. (DESIGN CHOICE, log 162) -/
def paddingPosts (s : State) (src : Nat) (t : Tracker) : List Post :=
  ((List.range 16).map fun c =>
    let b := boardEntry t c
    if b.1 && (b.2.1 || decide (t.count c ≠ 0)) then
      (List.range ((s.board b.2.2).len1 + 1 - t.count c)).map fun i =>
        trackerPost t src b.2.2 (t.count c + i) true (List.replicate 16 0#16)
    else []).flatten

/-- Padding posts of an engine still under way reach their boards (R168). -/
def finishPadding (s : State) (src : Nat) : State :=
  let mine := s.posts.filter fun p => p.pad && p.src == src
  mine.foldl (fun s p => s.applyPost p) { s with posts := s.posts.filter fun p => !(p.pad && p.src == src) }

/-! ### The job an engine runs -/

/-- The guaranteed coach whose waybill the engine's tracker holds, with its period, while that job has not ended. -/
def State.jobCoach (s : State) (e : EngId) : Option (Nat × Nat) :=
  let t := (s.engAt e).trk
  let c := (wordAt t.waybill 1).toNat
  if t.active && (wordAt t.waybill 0).getLsbD 9 then
    match (s.coach c).issued with
    | some g => if BitVec.ofNat 32 g = t.gen then some (c, g) else none
    | none => none
  else none

/-- The best-effort job whose waybill the engine's tracker holds. -/
def State.jobBe (s : State) (e : EngId) : Option BeJob :=
  let t := (s.engAt e).trk
  if t.active && !(wordAt t.waybill 0).getLsbD 9 then
    s.ik.bejobs.find? fun j =>
      decide (j.issued.map Prod.fst = some e.val) && decide (j.inst = t.inst) && decide (j.tag = wordAt t.waybill 1)
  else none

/-- The device with one best-effort job changed. -/
def State.modBe (s : State) (id : Nat) (f : BeJob → BeJob) : State :=
  { s with ik := { s.ik with bejobs := s.ik.bejobs.map fun j => if j.id = id then f j else j } }

/-- The marks of the coach's present period changed (R381). -/
def State.mark (s : State) (c : Nat) (f : JobEnd → JobEnd) : State := s.modCoach c fun k => { k with ended := f k.ended }

/-- A guaranteed job of this engine ends in its fallback, with marks. -/
def State.jobFallback (s : State) (e : EngId) (f : JobEnd → JobEnd) : State :=
  match s.jobCoach e with
  | some (c, g) => (s.mark c f).fallback c g
  | none => s

/-- A job executed a host-window load: mark H (R381). -/
def onHostLoad (s : State) (e : EngId) : State :=
  match s.jobCoach e with
  | some (c, _) => s.mark c fun j => { j with host := true }
  | none => s

/-! ### Start and end of a job -/

/-- Where reckoner e's own timer stands, for the captures of R343. -/
def ownTimer (e : EngId) : List (Nat × Nat) := if isReckoner e then [(engFrame e, e.val % 8)] else []

/-- JOBSTART retires (R168, R343): its timer captures, its coach's job runs. (DESIGN CHOICE, log 27) -/
def onJobStart (s : State) (e : EngId) : State :=
  let s := s.captureSrc 2 (ownTimer e)
  match s.jobCoach e with
  | some (c, g) => s.modCoach c fun k => { k with running := some g }
  | none => s

/-- JOBSTART's effect (R67, R108, R168): the budget and the waybill of the tracker loaded, the charge 0, every ratio stepper that
the kernel has not loaded since the last JOBSTART at its start value. (DEDUCED, log 171; DEDUCED, log 174) -/
def startJob (s : State) (e : EngId) (ws : List Word) : State :=
  let s := finishPadding s e.val
  onJobStart (s.modEng e fun x =>
    let m : Meter := { x.meter with running := isReckoner e, budget := BitVec.ofNat 32 (wordsAt ws 11 2), charge := 0#32, prev := none }
    let q := (List.range 4).foldl (fun q i => if x.qld.getLsbD i then q else tblSet {} q i {}) x.regs.q
    { x with regs := { x.regs with q := q }, qld := 0#4, hstk := [], heldK := [], meter := m
             trk := { active := true, waybill := ws, posted := [] } }) e

/-! ### Staging, fallbacks and hand-off (R263, R280, R281, R461, R463) -/

/-- Words copied from one place of the device's memory to another by a courier; uncorrectable ones arrive as such (R461). -/
def State.copyWords (s : State) (src dst n : Nat) : State :=
  ((List.range n).filter fun i => isBad s (src + i)).foldl (fun t i => t.markBad (dst + i)) (s.writeMem dst (memWords s.mem src n))

/-- A coach's channels of a period, each with its number in the staged state. -/
def Coach.staged (k : Coach) (g : Nat) : List (Nat × Member) := (List.range (k.at_ g).length).zip (k.at_ g)

/-- Where channel i of a coach's period has its state while a job works on it: staged in the local store, or in DRAM where nothing
was staged. -/
def State.workAt (s : State) (k : Coach) (i : Nat) (m : Member) : Nat :=
  match k.stagedAt with
  | some a => a + i * (s.progOf k).staged
  | none => s.stateOf k m.slot

/-- The fallback code of a coach in a period: that of its lowest-numbered channel there (R280). (DESIGN CHOICE, log 70) -/
def State.coachFallback (s : State) (k : Coach) (g : Nat) : Nat :=
  match k.at_ g with
  | [] => 0
  | m :: ms =>
    let i := ms.foldl (fun a x => min a x.stream) m.stream
    (s.stream i).fallback

/-- The payload a fallback sends for a channel: its place and its octets, from the block at `base` or the period's slot. (DEDUCED, log 118) -/
def State.fallbackPayload (s : State) (code base : Nat) (m : Member) (g : Nat) : Nat × Nat :=
  let w := fun i => (s.readMem (base + i)).toNat
  let a := (s.stream m.stream).slotAt m.leg g
  if code = 1 then (base + w 9, w 6)
  else if code = 2 then (base + w 10, w 7)
  else if code = 3 ∧ s.slotHas a g then
    let h := (s.readMem (a + 7)).toNat
    (a + 16 + 2 * (h / 4096) + h % 4096, (s.readMem (a + 1)).toNat)
  else (base + w 8, w 5)

/-- The words of a place that read as uncorrectable. -/
def State.badWords (s : State) (a n : Nat) : List Nat := ((List.range n).map (a + ·)).filter (isBad s)

/-- The uncorrectable words of a channel's fallback block and payload: where there are any its fallback is lost (R461). -/
def State.fallbackBad (s : State) (base : Nat) (p : Nat × Nat) : List Nat := s.badWords base 16 ++ s.badWords p.1 ((p.2 + 1) / 2)

/-- One channel's fallback (R281, steps 2 to 4): its entry, and its block and last payload in DRAM after it. A channel whose block
or payload lies in a failed group sends nothing, and the digest has mark E (R381, R461). (DESIGN CHOICE, log 70; DEDUCED, log 118) -/
def State.fallbackChannel (s : State) (c g i : Nat) (m : Member) : State × List (List Word) :=
  let k := s.coach c
  let base := s.workAt k i m
  let home := s.stateOf k m.slot
  let code := s.coachFallback k g
  let p := s.fallbackPayload code base m g
  let n := (p.2 + 1) / 2
  if s.fallbackBad base p ≠ [] then ((s.groupsFound (s.fallbackBad base p)).mark c fun j => { j with err := true }, [])
  else
    let seq := s.readMem base + 1#16
    let ts := (ofWords (memWords s.mem (base + 1) 2) + ofWords (memWords s.mem (base + 3) 2)) % 2 ^ 32
    let pay := memWords s.mem p.1 n
    let ofs := (s.readMem (base + 10)).toNat
    let s := s.writeMem base (seq :: toWords ts 2)
    let s := if code = 2 then s else (s.writeMem (base + ofs) pay).writeMem (base + 7) [BitVec.ofNat 16 p.2]
    let s := if base = home then s else s.copyWords base home 16
    let s := if base = home ∨ code = 2 then s else s.copyWords (base + ofs) (home + ofs) n
    (s, [[0x8000#16 ||| (if m.leg then 0x800#16 else 0#16)] ++ List.replicate 6 0#16 ++
      [BitVec.ofNat 16 m.stream, BitVec.ofNat 16 (m.stream / 65536)] ++
      toWords (home + ofs) 3 ++ [BitVec.ofNat 16 p.2, seq] ++ toWords ts 2])

/-- The list a coach's fallback emits, channel by channel. (DESIGN CHOICE, log 70) -/
def State.fallbackList (s : State) (c g : Nat) : State × List (List Word) :=
  ((s.coach c).staged g).foldl (fun r q =>
    let n := r.1.fallbackChannel c g q.1 q.2
    (n.1, r.2 ++ n.2)) (s, [])

/-- Words that a channel's fallback writes back (R281): its block, and but for REPEAT the payload sent; nothing of one that sends
nothing (R461). -/
def State.fallbackWords (s : State) (k : Coach) (g i : Nat) (m : Member) : Nat :=
  let code := s.coachFallback k g
  let base := s.workAt k i m
  let p := s.fallbackPayload code base m g
  if s.fallbackBad base p ≠ [] then 0 else 16 + (if code = 2 then 0 else (p.2 + 1) / 2)

/-- Words written back for a period that ended (R281). -/
def State.writtenBack (s : State) (k : Coach) (g : Nat) : Nat :=
  if k.ended.fallback then (k.staged g).foldl (fun n q => n + s.fallbackWords k g q.1 q.2) 0
  else (s.progOf k).staged * (k.at_ g).length

/-- A period's write-back (R208, R263, R281): the whole staged state, or what the fallback leaves, whose list is kept for the
board. Uncorrectable words of it set mark E (R381, R461). (DESIGN CHOICE, log 70; DEDUCED, log 73) -/
def State.writeBack (s : State) (c g : Nat) : State :=
  let k := s.coach c
  let words := s.writtenBack k g
  let s :=
    if k.ended.fallback then
      let r := s.fallbackList c g
      r.1.modCoach c fun k => { k with fbList := some (g, r.2) }
    else
      match k.stagedAt with
      | some a =>
        let s := (k.staged g).foldl (fun s q => s.copyWords (s.workAt k q.1 q.2) (s.stateOf k q.2.slot) (s.progOf k).staged) s
        if s.badWords a ((s.progOf k).staged * (k.at_ g).length) = [] then s else s.mark c fun j => { j with err := true }
      | none => s
  let s := if k.stagedAt.isSome then s.chainDone k.reck k.chain words else s
  s.modCoach c fun k => { k with stagedAt := none }

/-- The words of a coach's state area in DRAM. -/
def State.coachState (s : State) (k : Coach) : List Word := memWords s.mem k.stateBase (s.areaWords k)

/-- COACH_STATE (R371, R384): the coach, the period from which its state holds, the state. (DEDUCED, log 140) -/
def State.sendCoachState (s : State) (c g : Nat) : State :=
  let k := s.coach c
  s.linkSend 13 0 ([c, g % 2 ^ 32] ++ (s.coachState k).map BitVec.toNat)

/-- The resync served is complete once no coach's state is still to be sent: STATE_DONE carries the last MSEQ (R371, R394). -/
def State.resyncSent (s : State) : State :=
  if s.tw.resync = .sending ∧ (s.admitted.all fun x => !x.2.sendState) = true then
    { s with tw := { s.tw with resync := .sent } }.linkSend 14 0 [s.tw.mseqTx]
  else s

/-- The hand-off of a period: the write-back goes to DRAM, poisoned groups are zeroed (R463), and a resync's state is sent
(R384). (DEDUCED, log 73) -/
def State.handOff (s : State) (c g : Nat) : State :=
  let k := s.coach c
  let s := ((s.bill k.inst lcDram (s.writtenBack k g) (boundaryOf k.mul g)).writeBack c g).zeroGroups c
  if k.sendState && s.leads then
    ((s.sendCoachState c (g + 1)).modCoach c fun k => { k with sendState := false, holdDigest := false, compareFrom := g + 1 }).resyncSent
  else s

/-- A guaranteed job ended with a charge: its charge is reported to Tally (R168, R347), its period handed off. -/
def State.coachJobEnd (s : State) (c g charge : Nat) : State :=
  let s := s.modCoach c fun k => { k with issued := none, running := none, ended := { k.ended with period := g, charge := charge } }
  let k := s.coach c
  (s.bill k.inst lcGSteps charge (boundaryOf k.mul g)).handOff c g

/-- The step bucket's capacity, in 1,024ths: limit / 16 (R277). -/
def bucketMax (limit : Nat) : Int := (limit : Int) * 64

/-- A best-effort job's state moved by a chain on reckoner r (R208, R277, R347), of any number of descriptors. (DESIGN CHOICE, log 197) -/
def State.beMoved (s : State) (j : BeJob) (r t : Nat) : State :=
  let n := (s.prog j.inst j.prog).beState
  if n = 0 then s else ((s.bill j.inst lcDram n t).drawn).chainDone r (1 + Config.freeNat s.fv) n

/-- A best-effort job's state written back where it was staged from (R277, R347). (DESIGN CHOICE, log 179) -/
def State.beWriteBack (s : State) (j : BeJob) (t : Nat) : State :=
  let p := s.prog j.inst j.prog
  match j.stagedAt, j.issued with
  | some a, some (r, _) => (s.copyWords a p.beBase p.beState).beMoved j r t
  | _, _ => s

/-- A best-effort job ended with a charge (R277, R305, R347): the unused budget returns, the command completes. -/
def State.beJobEnd (s : State) (j : BeJob) (charge : Nat) : State :=
  let t := match j.issued with | some (_, r) => r * 2 ^ 38 | none => s.now
  let s := { s with ik := { s.ik with bejobs := s.ik.bejobs.filter fun x => x.id ≠ j.id } }
  let s := s.modInst j.inst fun i =>
    let b := min ((i.buckets.headD 0) + 1024 * ((j.budget : Int) - charge)) (max (i.buckets.headD 0) (bucketMax (i.limits.headD 0)))
    { i with buckets := b :: i.buckets.drop 1 }
  let s := s.bill j.inst lcBeSteps charge t
  let s := s.beWriteBack j t
  let r := charge % 2 ^ 32 + (if j.ovr then 2 ^ 32 else 0) + (if j.fault then 2 ^ 33 else 0)
  match (s.instAt j.inst).busy with
  | some b => if b.wait = .job j.id then s.complete j.inst { status := .ok, tag := b.tag, op := b.op, detail := 0, result := r } else s
  | none => s

/-- JOBEND retires with a job running (R168, R343, R347). -/
def onJobEnd (s : State) (e : EngId) : State :=
  let s := s.captureSrc 3 (ownTimer e)
  let charge := (s.engAt e).meter.charge.toNat
  match s.jobCoach e with
  | some (c, g) => s.coachJobEnd c g charge
  | none =>
    match s.jobBe e with
    | some j => s.beJobEnd j charge
    | none => s

/-! ### What ends a job early -/

/-- A budget overrun (R110, R282): IK_EVT.OVERRUN, the ledger's count, the fallback of a guaranteed period. -/
def onOverrun (s : State) (e : EngId) : State :=
  let s := s.setBit 0x0C0001 2
  match s.jobCoach e with
  | some (c, g) =>
    let k := s.coach c
    (s.bill k.inst lcOverruns 1 (boundaryOf k.mul g)).fallback c g
  | none =>
    match s.jobBe e with
    | some j =>
      let t := match j.issued with | some (_, r) => r * 2 ^ 38 | none => s.now
      (s.bill j.inst lcBeOverruns 1 t).modBe j.id fun j => { j with ovr := true }
    | none => s

/-- BOARD_OPEN taken (R74): the coach's fallback, with mark E where an uncorrectable error struck the block's totals (R381). -/
def onBoardOpen (s : State) (e : EngId) (lost : Bool) : State := s.jobFallback e fun j => { j with err := j.err || lost }

/-- The coach and period an error record names for an engine's job. -/
def State.recCoach (s : State) (e : EngId) : Nat × Nat :=
  match s.jobCoach e with
  | some (c, g) => (c, g % 2 ^ 32)
  | none => (0xFFFF, 0)

/-- A machine check is answered (R460): the record, with the physical address of the word that failed (R464), the running job's end with mark E, and for PARITY the frame's drain. A
sub-code of R139 is answered by software alone. (DESIGN CHOICE, log 71) -/
def onMachineCheck (s : State) (e : EngId) (sub at_ : Nat) : State :=
  if sub < 3 then s
  else
    let k := s.recCoach e
    let code := if sub = 5 then 3 else 2
    let s := s.record { severity := 1, unit := (unitOf e).1, code := code, source := (unitOf e).2, coach := k.1, addr := at_, period := k.2 }
    let s := s.jobFallback e fun j => { j with err := true }
    let s := match s.jobBe e with
      | some j => s.modBe j.id fun j => { j with fault := true }
      | none => s
    if sub = 5 ∧ isReckoner e = true then s.drainOut (engFrame e) else s

/-- A guaranteed period whose job does not run, or runs no further: its fallback from the blocks in DRAM (R460, R478, R509), its padding to
be made by the Innkeeper when the job had not started (R509, R511), and its hand-off. A job that had started is billed the charge it
had been metered (R347). (DEDUCED, log 160) -/
def State.periodLost (s : State) (c g : Nat) (started : Option Nat) (f : JobEnd → JobEnd) : State :=
  let s := (s.mark c f).fallback c g
  let s := s.modCoach c fun k =>
    { k with issued := none, running := none, stagedAt := none, pad := if started.isSome then k.pad else some g
             ended := { k.ended with period := g, charge := started.getD 0 } }
  (s.bill (s.coach c).inst lcGSteps (started.getD 0) (boundaryOf (s.coach c).mul g)).handOff c g

/-- The charge metered so far of the job an engine runs, where that is coach c's (R347). -/
def State.metered (s : State) (e : EngId) (c : Nat) : Option Nat :=
  if (s.jobCoach e).map Prod.fst = some c then some (s.engAt e).meter.charge.toNat else none

/-- A reckoner in checkstop (R460, R511, R512): the record; its coaches' periods end in their fallbacks with mark E, the job in
progress padded by the tracker and the others by the Innkeeper; best-effort jobs end without output; its frame leaves
service. -/
def State.reckonerCheckstop (s : State) (e : EngId) : State :=
  let k := s.recCoach e
  let started := fun c => s.metered e c
  let s := s.record { severity := 3, unit := 0, code := 5, source := e.val, coach := k.1, period := k.2 }
  let x := s.engAt e
  let s := if x.trk.active then
      { s with posts := s.posts ++ paddingPosts s e.val x.trk }.modEng e fun x =>
        { x with meter := { x.meter with running := false }, trk := { x.trk with active := false } }
    else s
  let s := (s.ik.coaches.filter fun y => y.2.valid && decide (y.2.reck = e.val)).foldl (fun s y =>
    match y.2.issued with
    | some g => s.periodLost y.1 g (started y.1) fun j => { j with err := true }
    | none => s) s
  let s := (s.ik.bejobs.filter fun j => decide (j.issued.map Prod.fst = some e.val)).foldl (fun s j =>
    s.beJobEnd { j with fault := true, ovr := false, stagedAt := none } 0) s
  s.drainOut (engFrame e)

/-- An engine enters checkstop (R144, R452, R460, R511, R512). -/
def onCheckstop (s : State) (e : EngId) : State :=
  if isReckoner e then s.reckonerCheckstop e else s.pairCheckstop (e.val - 192)

/-- INNKEEPER_PADDING (R511): the padding posts of a coach's period whose job did not run. -/
def State.padLost (s : State) (c : Nat) : State :=
  match (s.coach c).pad with
  | some g => (s.padPeriod c g).modCoach c fun k => { k with pad := none }
  | none => s

/-! ### Debug halts -/

/-- A steward pair's compare points ignore differences from its first halt or debug write (R473). -/
def State.uncheck (s : State) (e : EngId) : State :=
  if isReckoner e then s else { s with pw := { s.pw with unchecked := tblSet false s.pw.unchecked (e.val - 192) true } }

/-- A debug halt is recorded (R473, R476, R479): CHECK_BROKEN, DB_EVT.HALT, DB_LAST_HALT, the journal. -/
def onHalt (s : State) (e : EngId) (cause : Nat) : State :=
  let s := (s.uncheck e).breakChecking
  let s := (s.setBit 0x3C0001 1).setReg 0x3C0002 (engIdWord e)
  s.journal { origin := .debugPort, target := .event 9 0, old := engIdWord e, new := BitVec.ofNat 16 cause }

/-- VCORE_EN rises 2 ms after always-on power-up (R493). -/
def State.vcoreRise (s : State) : State :=
  match s.pw.vcoreAt with
  | some t => if usPassed t s.time 2000 then { s with pw := { s.pw with vcoreEn := true, vcoreAt := none } } else s
  | none => s

/-- TIMEOUT, once a HALT or STEP has waited 20 µs for its halt, which stays requested (R467). (DEDUCED, log 153) -/
def State.debugExpire (s : State) : State :=
  if s.pw.dbgWait.isSome && usPassed s.pw.dbgWaitAt s.time 20 then { s with pw := { s.pw with dbgWait := none } }.send (.debug 6 []) else s

/-! ### The watchdog (R265, R478) -/

/-- The deadline of a coach's period (R261, R265): B(g) + DEADLINE_OFS, 2^28 units later on a device that does not lead (R375). -/
def State.deadlineOf (s : State) (k : Coach) (g : Nat) : Nat := boundaryOf k.mul g + usUnits (k.rel - 100) + (if s.leads then 0 else 2 ^ 28)

/-- A value is the watchdog's of the job a reckoner runs (R265): its period's deadline in a timer's units. (DESIGN CHOICE, log 72) -/
def State.isWatchdog (s : State) (i v : Nat) : Bool :=
  match s.jobCoach (reckoner i) with
  | some (c, g) =>
    let d := s.deadlineOf (s.coach c) g / 65536 % 2 ^ 64
    decide (v = d) || decide (v = (d + 1) % 2 ^ 64)
  | none => false

/-- The watchdog ends a job (R265, R465): IK_EVT.DEADLINE_MISS, mark W, the fallback; with the floor held, an error record and
the frame drained for recalibration. (DESIGN CHOICE, log 72) -/
def State.deadlineMiss (s : State) (e : EngId) : State :=
  let k := s.recCoach e
  let s := ((s.setBit 0x0C0001 7).count 3143 1).jobFallback e fun j => { j with watchdog := true }
  if s.bit 0x020000 13 then
    ((s.record { severity := 1, unit := 0, code := 6, source := e.val, coach := k.1, period := k.2 }).unguard (engFrame e)).drainRecal (engFrame e)
  else s

/-- The kernel answers the timers that have fired: those that are a running job's watchdog end it (R265), where its reckoner is not halted
(R478). (DESIGN CHOICE, log 72) -/
def State.watchdogs (s : State) : State :=
  s.clk.fired.foldl (fun s x =>
    if !s.isWatchdog x.1 x.2 ∨ (s.engAt (reckoner x.1)).run = .halted then s
    else s.deadlineMiss (reckoner x.1)) { s with clk := { s.clk with fired := [] } }

end Sys2Proof.Machine
end

