-- ==== Sys2Proof/Machine/Ops.lean ====
section
/-! DEFINITION. Issuing and retiring an instruction, and the events that divert an engine: fetch and its charge
(R173 to R181), taking an exception (R139 to R145), debug halts (R469 to R472), pairing (R57, R86, R87), the budget
meter (R108 to R111), delay slots (R89 to R91) and block repeat (R101, R136, R137). -/
namespace Sys2Proof.Machine

/-! ### Status words -/

/-- The number of a mode in PSR. -/
def Mode.code : Mode → Nat
  | .user => 0
  | .kernel => 1
  | .machine => 2

/-- PSR as a word. -/
def Psr.toWord (p : Psr) : Word :=
  BitVec.ofNat 16 (p.mode.code + 4 * p.ie.toNat + 8 * p.hl.toNat + 16 * p.walk.toNat + 32 * p.rpe.toNat
    + 64 * p.pkernel.toNat + 256 * p.pie.toNat + 512 * p.prpe.toNat)

/-- PSR from a saved word (R142); a MODE of 3 keeps the mode it had, a PMODE of 2 or 3 is taken as user. (DESIGN CHOICE, log 20) -/
def Psr.ofWord (w : Word) (old : Mode) : Psr :=
  { mode := match fld w 0 2 with | 0 => .user | 1 => .kernel | 2 => .machine | _ => old
    ie := w.getLsbD 2, hl := w.getLsbD 3, walk := w.getLsbD 4, rpe := w.getLsbD 5
    pkernel := decide (fld w 6 2 = 1), pie := w.getLsbD 8, prpe := w.getLsbD 9 }

/-- CAUSE and CAUSE_M (R139). -/
def causeWord (code sub len nest : Nat) : Word := BitVec.ofNat 16 (code + 32 * nest + 64 * len + 256 * sub)

/-- The instruction length in words that a first word gives (R129). (DEDUCED, log 22) -/
def wordLen (w : Word) : Nat :=
  let op := fld w 10 6
  if op < 0x28 then 1 else if op < 0x38 then 2 else 3

/-- Is the primary opcode of the lane class (R129)? -/
def laneClass (w : Word) : Bool :=
  let op := fld w 10 6
  (decide (0x20 ≤ op) && decide (op < 0x28)) || (decide (0x32 ≤ op) && decide (op < 0x38))

/-- The line of the instruction cache that holds a fetched word; words of the engine's own local store, and of the own-local-store
range, are never cached (R191, R200). (DESIGN CHOICE, log 11) -/
def fetchLine (x : Engine) (e : EngId) (p : Phys) : Option DLine :=
  if p.own ∨ regionOf p.pa = .loc e.val then none else x.icache.find? fun d => d.line == lineOf p.pa

/-- A word as fetch reads it: of the instruction cache, which follows no other agent's write (R201), else of memory. -/
def fetchWord (s : State) (e : EngId) (p : Phys) : Word :=
  match fetchLine (s.engAt e) e p with
  | some d => d.data.getD (p.pa % 16) 0#16
  | none => s.readMem p.pa

/-- A fetched word is uncorrectable where fetch reads it (R457, R459). -/
def fetchBad (s : State) (e : EngId) (p : Phys) : Bool :=
  match fetchLine (s.engAt e) e p with
  | some d => d.bad.contains (p.pa % 16)
  | none => isBad s p.pa

/-- The length of the instruction that stands at an address; a free length where it cannot be read. (DEDUCED, log 22; DESIGN CHOICE, log 30) -/
def peekLen (s : State) (e : EngId) (va : Addr) : Nat :=
  match translateWord s e va .fetch with
  | .ok p => wordLen (fetchWord s e p)
  | _ => 1 + Config.freeNat s.fv % 3

/-! ### Budget meter -/

/-- The meter charges what the engine executes now (R109): a job runs, and the engine is in user mode or in kernel
mode inside the handler of a synchronous exception only. (DESIGN CHOICE, log 25) -/
def Engine.metered (x : Engine) : Bool :=
  x.meter.running && !x.hstk.contains .intr &&
    (match x.psr.mode with
     | .user => true
     | .kernel => x.hstk.contains .sync
     | .machine => false)

/-- First and Further of *Memory charges by region* for a load or a store (R177). (DEDUCED, log 28; DEDUCED, log 29) -/
def regionCost (e : EngId) (r : Region) (store : Bool) : Nat × Nat :=
  match r with
  | .loc k => if k = e.val then (2, 1) else if k / 8 = engFrame e ∧ e.val < 192 then (24, 2) else (96, 2)
  | .frame f => if f = engFrame e ∧ e.val < 192 then (24, 2) else (96, 2)
  | .stew _ => (96, 2)
  | .dram => (640, 4)
  | .board => (192, 2)
  | .csr => (256, 4)
  | .host => (if store then 1600 else 16000, 16)
  | .none => (0, 0)

/-- The memory part of one access of a kind (R177, R179): g blocks of 4 words, b of 16; an atomic is a load and a
store less 1; a line write-back is a store of its 16 words (R176). (DEDUCED, log 29) -/
def memCharge (e : EngId) (k : Kind) (ps : List Phys) : Nat :=
  match ps with
  | [] => 0
  | p :: _ =>
    let lo := p.va.toNat
    let hi := lo + ps.length - 1
    let g := hi / 4 - lo / 4 + 1
    let b := hi / 16 - lo / 16 + 1
    let part (store : Bool) := let c := regionCost e (regionOf p.pa) store; b * c.1 + (g - b) * c.2
    match k with
    | .load => part false
    | .store => part true
    | .atomic => part false + part true - 1
    | .wback => (regionCost e (regionOf p.pa) true).1 + 3 * (regionCost e (regionOf p.pa) true).2
    | _ => 0

/-- The fetch part (R180): 1 for words in two fetch blocks; outside the own local store, Load First for each 16-word
block of the instruction's words that does not hold the first word of the instruction retired before it. -/
def fetchCharge (x : Engine) (e : EngId) (fps : List Phys) : Nat :=
  let straddle := if x.pc.toNat % 4 + fps.length > 4 then 1 else 0
  let far := fps.filter fun p => regionOf p.pa != .loc e.val
  let lines := noRepeats (far.map fun p => p.pa / 16)
  let fresh := lines.filter fun l => match x.meter.prev with | some q => q / 16 != l | none => true
  straddle + (fresh.map fun l => (regionCost e (regionOf (l * 16)) false).1).sum

/-! ### Taking an exception -/

/-- The instruction at the point stands in a delay slot: after its branch, or re-executed by a return with a
continuation that is not its successor. (DEDUCED, log 16) -/
def Engine.inSlot (x : Engine) (len : Nat) : Bool :=
  x.slot || (match x.npc with | some n => n != x.pc + BitVec.ofNat 48 len | none => false)

/-- The engine stands between a branch and its slot, where neither an interrupt nor a halt asked for is taken (R104). -/
def betweenSlot (s : State) (e : EngId) : Bool := (s.engAt e).inSlot (peekLen s e (s.engAt e).pc)

/-- A debug halt is taken (R469): the point and the continuation are saved in DPC and DNPC; the debug command that waits for it
is answered with the cause (R467). -/
def haltEng (s : State) (e : EngId) (cause : Nat) : State :=
  let x := s.engAt e
  let cont := x.npc.getD (x.pc + BitVec.ofNat 48 (peekLen s e x.pc))
  let s := onHalt (s.setEng e { x with run := .halted, dpc := x.pc, dnpc := cont, stepLeft := 0, haltAsked := false, dbgCause := cause }) e cause
  if s.pw.dbgWait = some e.val then
    { s with pw := { s.pw with dbgWait := none } }.send (.debug 0 [BitVec.ofNat 16 cause])
  else s

/-- What an event that diverts an engine at its point keeps for the return (R23, R87, R90, R104): `base` is the base charge of the
instruction there, where it has one and did not retire: TRAP and BRK (R109, R142, R176). (DEDUCED, log 16) -/
def Engine.interrupted (x : Engine) (code : Nat) : Interrupted :=
  { pair := x.pair, slot := if x.slot then some x.pc else none, base := if code = 9 ∨ code = 0x0A then 1 else 0 }

/-- The instruction that a return brings back at a point stood in a delay slot there. (DEDUCED, log 16) -/
def Interrupted.slotAt (h : Interrupted) (pc : Addr) : Bool := h.slot == some pc

/-- Entry to a kernel vector as one action (R140): SPOT, SNEXT and CAUSE saved, PSR changed, fetch from VBASE + offset with the
effect of ISYNC; what was interrupted kept until its return. (DEDUCED, log 31; DEDUCED, log 172) -/
def enterKernel (x : Engine) (h : HandlerKind) (code sub len nest offset : Nat) (point cont : Addr) : Engine :=
  { x with
    ctrl := { x.ctrl with spot := point, snext := cont, cause := causeWord code sub len nest }
    psr := { x.psr with pkernel := decide (x.psr.mode = .kernel), pie := x.psr.ie, prpe := x.psr.rpe,
                        mode := .kernel, ie := false, hl := true, rpe := false, walk := decide (code = 1) }
    pc := x.ctrl.vbase + BitVec.ofNat 48 offset
    npc := none, slot := false, annul := false, ftlb := x.tlb, fasid := x.ctrl.asid
    pair := none, heldK := x.interrupted code :: x.heldK, hstk := h :: x.hstk }

/-- Entry to the machine-check vector (R141). -/
def enterMachine (x : Engine) (sub : Nat) (bad : Option Addr) (point cont : Addr) : Engine :=
  { x with
    ctrl := { x.ctrl with psrM := x.psr.toWord, spotM := point, snextM := cont, causeM := causeWord 0x18 sub 0 0,
                          badaddrM := bad.getD x.ctrl.badaddrM }
    psr := { x.psr with mode := .machine, ie := false, rpe := false, walk := false }
    pc := x.ctrl.vbase + 0x0A0#48
    npc := none, slot := false, annul := false
    pair := none, heldM := x.interrupted 0x18 }

/-- The vector offset of a kernel exception (R139). -/
def vectorOffset (code : Nat) : Nat :=
  if code = 1 then 0x000 else if code = 3 then 0x020 else if code = 0x0B then 0x040
  else if code = 0x10 then 0x080 else 0x060

/-- TW0 to TW2 as an exception writes them: the first of the words given, the others kept when none is given. -/
def Ctrl.withTw (c : Ctrl) (tw : List Word) : Ctrl :=
  match tw with
  | [] => c
  | [a] => { c with tw0 := a }
  | a :: b :: r => { c with tw0 := a, tw1 := b, tw2 := r.headD 0#16 }

/-- BOARD_OPEN of entry SUB: CB_EVT.OPEN_READ with the entry's board (R81). -/
def openRead (s : State) (e : EngId) (exc : Exc) : State :=
  match exc with
  | .kern code sub _ _ _ => if code = 8 then s.cbEvent 1 (boardEntry (s.engAt e).trk sub).2.2 else s
  | _ => s

/-- An uncorrectable error struck the totals of the block that entry SUB found open (R73, R381); the exception saves its number. -/
def boardLost (s : State) (e : EngId) (entry : Nat) (tw : List Word) : Bool :=
  let t := (s.engAt e).trk
  let g := t.gen - 1#32
  let k := s.block (boardEntry t entry).2.2 (wordAt tw 0).toNat g
  k.lost && decide (k.tag = g)

/-- A write-back that found an error of the data cache's own array (R510): the line reaches memory, its affected groups poisoned. (DEDUCED, log 190) -/
def spillLine (s : State) (e : EngId) (exc : Exc) : State :=
  match exc with
  | .wback line _ =>
    let s := match (s.engAt e).dcache.find? fun d => d.line == line with
      | some d => writeLine s d
      | none => s
    s.modEng e fun x => { x with dcache := x.dcache.filter fun d => d.line != line }
  | _ => s

/-- Where the uncorrectable word of a load or fetch stands in physical memory. -/
def badPlace (s : State) (e : EngId) (exc : Exc) : Option Phys :=
  match exc with
  | .mc sub (some va) =>
    if sub = 3 ∨ sub = 4 then
      match translateWord s e va (if sub = 4 then .fetch else .load) with
      | .ok p => some (if sub = 4 then { p with cached := (fetchLine (s.engAt e) e p).isSome } else p)
      | _ => none
    else none
  | _ => none

/-- A load or fetch that has met an uncorrectable group of DRAM, and not in a cache, is an event of its channel (R215). -/
def uncorrSeen (s : State) (p : Option Phys) : State :=
  match p with
  | some p => if regionOf p.pa = .dram ∧ p.cached = false then s.groupFound p.pa else s
  | none => s

/-- A machine check that a steward pair never reaches its monitor with: lockstep decides it (R459, R460). (DEDUCED, log 192) -/
def lockstepDecides (e : EngId) (exc : Exc) : Bool :=
  !isReckoner e && (match exc with | .mc sub _ => decide (3 ≤ sub) | .wback _ _ => true | .kern _ _ _ _ _ => false)

/-- An exception or machine check of the instruction at the point (R139 to R144, R471). `len` is that instruction's
length. In machine mode the engine checkstops, as a steward pair does with data that neither copy can correct (R452, R460); with
HL = 1 the exception becomes DOUBLE, which keeps its address; else its vector is entered. A board found open is an event in every
case (R81). (DEDUCED, log 31; DEDUCED, log 190; DEDUCED, log 192) -/
def takeExc (s : State) (e : EngId) (len : Nat) (exc : Exc) : State :=
  let s := openRead (drainAll (spillLine s e exc) e) e exc
  let place := badPlace s e exc
  let s := uncorrSeen s place
  let x := (s.engAt e).count (perfKeys e) 0x0B 1
  let point := x.pc
  let cont := x.npc.getD (x.pc + BitVec.ofNat 48 len)
  if x.psr.mode = .machine ∨ lockstepDecides e exc = true then onCheckstop (s.setEng e { s.engAt e with run := .checkstop }) e
  else
    let machine (sub : Nat) (bad : Option Addr) (at_ : Nat) : State :=
      onMachineCheck (s.setEng e { enterMachine x sub bad point cont with run := .running, skipDbg := false, skipWp := false }) e sub at_
    let t := match exc with
      | .mc sub bad => machine sub bad ((place.map Phys.pa).getD 0)
      | .wback line bad => State.drawn (machine 3 (some (bad.getD (BitVec.ofNat 48 (Config.freeNat s.fv)))) (line * 16))
      | .kern code sub l bad tw =>
        if x.psr.hl then machine 2 bad 0
        else
          let x := if code = 1 then x.count (perfKeys e) 7 1 else x
          let y := enterKernel x (if x.metered then .sync else .other) code sub l 0 (vectorOffset code) point cont
          let t := s.setEng e { y with run := .running, skipDbg := false, skipWp := false,
                                       ctrl := { y.ctrl with badaddr := bad.getD y.ctrl.badaddr }.withTw tw }
          if code = 8 then onBoardOpen t e (boardLost s e sub tw) else t
    if x.stepLeft = 0 then t else haltEng t e 5

/-- A budget overrun is taken to the OVERRUN vector whatever HL holds; the meter stops (R110, R143). -/
def takeOverrun (s : State) (e : EngId) (len : Nat) : State :=
  let s := drainAll s e
  let x := (s.engAt e).count (perfKeys e) 0x0B 1
  let y := enterKernel x .sync 0x0B 0 0 (if x.psr.hl then 1 else 0) 0x040 x.pc (x.npc.getD (x.pc + BitVec.ofNat 48 len))
  let t := onOverrun (s.setEng e { y with meter := { y.meter with running := false, overrun := true },
                                          run := .running, skipDbg := false, skipWp := false }) e
  if x.stepLeft = 0 then t else haltEng t e 5

/-! ### Issue -/

/-- The instruction's length in words. -/
def Shape.len (sh : Shape) : Nat := sh.words.length

/-- One data access: its address, its size in words, its kind. -/
structure Access where
  va : Addr
  z : Nat
  kind : Kind
  deriving DecidableEq, Repr

/-- What an instruction's operands fix before it executes: whether it raises EMULATE, ILLEGAL or DIVZERO, its data
accesses, and where a load's words go with the address register it updates. -/
structure Plan where
  emul : Bool := false
  illegal : Bool := false
  divz : Bool := false
  acc : List Access := []
  dst : Option LoadDst := none
  upd : Option (Nat × Addr) := none
  deriving DecidableEq, Repr

/-- Where execution continues: in sequence, after a branch's slot, at an address, or where the effect has put it. -/
inductive Flow where
  | seq
  | branch (taken : Bool) (target : Addr) (annul : Bool)
  | goto (pc : Addr) (npc : Option Addr) (slot : Bool)
  | done
  deriving DecidableEq, Repr

/-- Why an instruction does not execute at its point. -/
inductive Divert where
  | halt (cause : Nat)
  | exc (x : Exc)
  deriving DecidableEq, Repr

/-- Modes in order of privilege. -/
def Mode.rank : Mode → Nat
  | .user => 0
  | .kernel => 1
  | .machine => 2

/-- Block repeat is active (R137). -/
def Engine.repeating (x : Engine) : Bool := decide (x.regs.brc ≠ 0#16) && x.psr.rpe

/-- The words EMULATE, ILLEGAL and PRIVILEGED save (R147). -/
def Shape.tw (sh : Shape) : List Word := [sh.words.getD 0 0#16, sh.words.getD 1 0#16, sh.words.getD 2 0#16]

/-- The breakpoint that matches at the point, if one does (R472). `hi` holds the ASID to match plus 1, or 0. (DESIGN CHOICE, log 19) -/
def bpHit (x : Engine) : Option Nat :=
  (x.bps.find? fun b => b.2.armed && b.2.lo == x.pc.toNat && (b.2.hi == 0 || b.2.hi == x.ctrl.asid.toNat + 1)).map (·.1)

/-- The watchpoint that an access matches, if one does (R472). Kinds: 1 load, 2 store, 3 both. -/
def wpHit (x : Engine) (acc : List Access) : Option Nat :=
  (x.wps.find? fun b => b.2.armed && acc.any fun a =>
    let bits := match a.kind with | .load => 1 | .store => 2 | .atomic => 3 | _ => 0
    decide (b.2.kind &&& bits ≠ 0) && (accessVas a.va a.z).any fun v =>
      (v ^^^ BitVec.ofNat 48 b.2.lo) &&& BitVec.ofNat 48 b.2.hi == 0#48).map (·.1)

/-- The exception of the instruction itself before any data access, in the order of R145. -/
def instrExc (x : Engine) (e : EngId) (sh : Shape) (pl : Plan) : Option Exc :=
  let atBre := x.repeating && decide (x.pc = x.regs.bre) && (sh.branch || x.inSlot sh.len)
  if pl.emul ∨ (sh.lacks ∧ !isReckoner e) then some (.kern 3 0 sh.len none sh.tw)
  else if pl.illegal ∨ (sh.slotIll ∧ x.inSlot sh.len) ∨ atBre then some (.kern 4 0 sh.len none sh.tw)
  else if x.psr.mode.rank < sh.priv.rank then some (.kern 5 0 sh.len none sh.tw)
  else if pl.divz then some (.kern 6 0 0 none [])
  else none

/-- The order of R106 and R145 among exceptions of data accesses: machine check, REFILL, ACCESS. -/
def Exc.order : Exc → Nat
  | .mc _ _ | .wback _ _ => 0
  | .kern code _ _ _ _ => if code = 1 then 1 else 2

/-- The data accesses translated; of those not permitted the first in the order of R145 is taken, of equals the first access. -/
def translateAll (s : State) (e : EngId) : List Access → Except Exc (List (List Phys))
  | [] => .ok []
  | a :: as =>
    match translate s e (accessVas a.va a.z) a.kind with
    | .error x =>
      match translateAll s e as with
      | .error y => .error (if y.order < x.order then y else x)
      | .ok _ => .error x
    | .ok p =>
      match translateAll s e as with
      | .error x => .error x
      | .ok ps => .ok (p :: ps)

/-- Is the exception a machine check? -/
def Exc.isMc : Exc → Bool
  | .kern _ _ _ _ _ => false
  | _ => true

/-- ACCESS with reason HOST and access type load (R190). -/
def Exc.isHostLoad : Exc → Bool
  | .kern code sub _ _ _ => decide (code = 2) && decide (sub = 13)
  | _ => false

/-- The machine check of a DCLEAN or DFLUSH of the line that holds a word (R510). (DEDUCED, log 190) -/
def wbackMc (s : State) (e : EngId) (p : Phys) : Option Exc :=
  (((drainAll s e).engAt e).dcache.find? fun d => d.line == lineOf p.pa).bind fun d => d.lost.map fun l => .wback l (some p.va)

/-- The machine check that one translated data access would meet where it stands (R139, R459). -/
def dataMc (s : State) (e : EngId) (a : Access × List Phys) : Option Exc :=
  match a.1.kind, a.2 with
  | .load, ps => match (loadWords s e ps).1 with | .error x => some x | .ok _ => none
  | .store, ps => match storeAccess s e ps [] with | .error x => some x | .ok _ => none
  | .atomic, p :: _ => if isBad (drainAll s e) p.pa then some (.mc 3 (some p.va)) else none
  | .wback, p :: _ => wbackMc s e p
  | _, _ => none

/-- The words at the point fetched: a machine check, then a breakpoint, then an exception of the fetch divert (R106). -/
def checkFetch (s : State) (e : EngId) (n : Nat) (bp : Option Nat) : Except Divert (List Phys) :=
  match translate s e (accessVas (s.engAt e).pc n) .fetch with
  | .error exc =>
    match exc.isMc, bp with
    | false, some c => .error (.halt c)
    | _, _ => .error (.exc exc)
  | .ok fps =>
    match fps.find? (fun p => fetchBad s e p) with
    | some p => .error (.exc (.mc 4 (some p.va)))
    | none => .ok fps

/-- The machine check of the fetch at the point (R106). -/
def pointMc (s : State) (e : EngId) : Option Exc :=
  match checkFetch s e (peekLen s e (s.engAt e).pc) none with
  | .error (.exc x) => if x.isMc then some x else none
  | _ => none

/-- The halt cause of a breakpoint at the point (R472). -/
def bpCause (x : Engine) : Option Nat := if x.skipDbg then none else (bpHit x).map fun n => 3 + 16 * n

/-- The halt cause of a breakpoint at the point, or of a watchpoint its accesses match (R472). -/
def dbgCauseOf (x : Engine) (acc : List Access) : Option Nat :=
  match bpCause x with
  | some c => some c
  | none => if x.skipWp then none else (wpHit x acc).map fun n => 4 + 16 * n

/-- The data accesses of the instruction at the point, after its own exceptions: a machine check of theirs, then a breakpoint
or watchpoint, then the exception of a translation (R106). (DEDUCED, log 18) -/
def checkData (s : State) (e : EngId) (pl : Plan) : Except Divert (List (List Phys)) :=
  let dbg := dbgCauseOf (s.engAt e) pl.acc
  match translateAll s e pl.acc with
  | .error exc =>
    match exc.isMc, dbg with
    | false, some c => .error (.halt c)
    | _, _ => .error (.exc exc)
  | .ok aps =>
    match dbg with
    | none => .ok aps
    | some c =>
      match (pl.acc.zip aps).findSome? (dataMc s e) with
      | some exc => .error (.exc exc)
      | none => .error (.halt c)

/-- Everything that can divert the instruction before it executes, in the order of R106 and R145; else its translated
words and accesses. (DEDUCED, log 18) -/
def checkInstr (s : State) (e : EngId) (sh : Shape) (pl : Plan) : Except Divert (List Phys × List (List Phys)) :=
  let x := s.engAt e
  match checkFetch s e sh.len (bpCause x) with
  | .error d => .error d
  | .ok fps =>
    match instrExc x e sh pl with
    | some exc => .error (match bpCause x with | some c => .halt c | none => .exc exc)
    | none =>
      match checkData s e pl with
      | .error d => .error d
      | .ok aps => .ok (fps, aps)

/-- The instruction is the later member of a pair with the one just retired (R86). -/
def isSecond (x : Engine) (e : EngId) (sh : Shape) : Bool :=
  match x.pair with
  | none => false
  | some p =>
    isReckoner e && decide (p.next = x.pc) && (p.lane != laneClass (sh.words.headD 0#16)) && !sh.serial &&
      !(sh.writes.any fun r => p.writes.contains r)

/-- The operands an instruction reads: those before the step when it is the later member of a pair (R57). (DEDUCED, log 14) -/
def readView (x : Engine) (e : EngId) (sh : Shape) : Regs :=
  match x.pair with
  | some p => if isSecond x e sh then p.regs else x.regs
  | none => x.regs

/-- The pair record an instruction leaves when it may be the first member of a pair (R86). (DEDUCED, log 14) -/
def openPair (x : Engine) (e : EngId) (sh : Shape) (second : Bool) : Option PairRec :=
  if isReckoner e && !second && !sh.serial && !x.inSlot sh.len && !(x.repeating && decide (x.pc = x.regs.bre)) then
    some { regs := x.regs, next := x.pc + BitVec.ofNat 48 sh.len, lane := laneClass (sh.words.headD 0#16), writes := sh.writes }
  else none

/-- The test of R101 at the retirement of the instruction at BRE: the continuation and the registers after it. (DEDUCED, log 18) -/
def breTest (x : Engine) (pc after : Addr) (seqNext : Addr) : Addr × Engine :=
  if x.repeating ∧ pc = x.regs.bre then
    if x.regs.brc.toNat > 1 then (x.regs.brs, { x with regs := { x.regs with brc := x.regs.brc - 1#16 } })
    else (seqNext, { x with regs := { x.regs with brc := 0#16 } })
  else (after, x)

/-- Instruction-cache lines the fetch brings in (R200): words outside the own local store. Which line of a full set is
replaced is free. (DESIGN CHOICE, log 11) -/
def fetchLines (s : State) (x : Engine) (e : EngId) (fps : List Phys) : Engine :=
  fps.foldl (fun x p =>
    let l := lineOf p.pa
    if p.own ∨ regionOf p.pa = .loc e.val ∨ x.icache.any (fun d => d.line == l) then x
    else
      let set := setLines DLine.line x.icache l
      let keep := if set.length < 4 then x.icache
        else x.icache.filter fun y => some y.line != (set[Config.freeNat s.fv % 4]?).map DLine.line
      ({ x with icache := readLine s l :: keep }).count (perfKeys e) 5 1) x

/-- An instruction has issued: the later member of a pair in slot 1, any other in slot 0 (R86, R361). (DESIGN CHOICE, log 186) -/
def Engine.issued (x : Engine) (second : Bool) : Engine :=
  { x with issuedIn := x.issuedIn ||| (if second then 2#2 else 1#2) }

/-- Charges of a metered instruction (R173 to R181): base, memory, fetch and block-repeat parts less the pair credit. -/
def chargeOf (x : Engine) (e : EngId) (sh : Shape) (pl : Plan) (fps : List Phys) (aps : List (List Phys)) : Nat :=
  let mem := ((pl.acc.zip aps).map fun a => memCharge e a.1.kind a.2).sum
  let rpt := if x.repeating && sh.writes.contains .br then 5 else 0
  sh.base + mem + fetchCharge x e fps + rpt - (if isSecond x e sh then 1 else 0)

/-- Stepping (R471): the count goes down where an instruction ends; at 0 the engine halts with cause 2. -/
def stepDone (s : State) (e : EngId) : State :=
  let x := s.engAt e
  if x.stepLeft = 0 ∨ x.slot = true then s
  else if x.stepLeft = 1 then haltEng s e 2
  else s.setEng e { x with stepLeft := x.stepLeft - 1 }

/-- Retirement of an instruction that has executed from state `x0` of its engine: the charge, the counters, the pair,
the continuation and block repeat; one instruction less before a PMC interrupt that is due (R362). -/
def retire (s : State) (e : EngId) (x0 : Engine) (sh : Shape) (fps : List Phys) (chg : Nat) (fl : Flow) : State :=
  let second := isSecond x0 e sh
  let met := x0.metered && !sh.unmetered
  let x := { s.engAt e with pmcDue := (s.engAt e).pmcDue.map (· - 1) }
  let x := x.count (perfKeys e) 1 1
  let x := if second then x.count (perfKeys e) 2 1 else x
  let x := if met then
      let x := x.count (perfKeys e) 0x0F chg
      let x := if x0.pc.toNat % 4 + sh.len > 4 then x.count (perfKeys e) 0x10 1 else x
      { x with meter := { x.meter with charge := x.meter.charge + BitVec.ofNat 32 chg, prev := fps.head?.map (·.pa) } }
    else x
  let seqNext := x0.pc + BitVec.ofNat 48 sh.len
  let x := { x with skipDbg := false, skipWp := false }
  let x := match fl with
    | .branch taken target annul =>
      { x with pc := seqNext, npc := if taken then some target else none, slot := true, annul := annul && !taken,
               pair := openPair x0 e sh second }
    | .goto pc npc slot => { x with pc := pc, npc := npc, slot := slot, annul := false }
    | .done => { x with slot := false, annul := false }
    | .seq =>
      let r := breTest x x0.pc (x0.npc.getD seqNext) seqNext
      { r.2 with pc := r.1, npc := none, slot := false, annul := false, pair := openPair x0 e sh second }
  stepDone (s.setEng e x) e

/-- A delay slot annulled by a branch not taken retires as a no-operation, charged 1 (R89, R176); its first word is the one the
next fetch charge looks back to (R180); it is one instruction of the bound of R362. At BRE it is neither the repeat's end nor ILLEGAL. (DESIGN CHOICE, log 166; DEDUCED, log 175) -/
def retireAnnulled (s : State) (e : EngId) (len : Nat) : State :=
  let x := s.engAt e
  if x.metered && decide (x.meter.charge.toNat + 1 > x.meter.budget.toNat) then takeOverrun s e len
  else
    let y := ({ x with pmcDue := x.pmcDue.map (· - 1) }.issued false).count (perfKeys e) 1 1
    let y := if x.metered then
        let y := y.count (perfKeys e) 0x0F 1
        { y with meter := { y.meter with charge := y.meter.charge + 1#32, prev := match translateWord s e x.pc .fetch with
            | .ok p => some p.pa
            | _ => y.meter.prev } } else y
    stepDone (s.setEng e { y with pc := x.npc.getD (x.pc + BitVec.ofNat 48 len), npc := none, slot := false, annul := false,
                                  pair := none, skipDbg := false, skipWp := false }) e

/-- The host words a load waits for: `none` for each word in the host window (R217). (DEDUCED, log 28) -/
def hostAwait (s : State) (e : EngId) (aps : List (List Phys)) : List (Option Word) :=
  (aps.flatten).map fun p => if regionOf p.pa = .host then none else some (readTarget s e p).1

/-- The virtual addresses of the host words a load waits for. -/
def hostVas (aps : List (List Phys)) : List Addr :=
  (aps.flatten).filterMap fun p => if regionOf p.pa = .host then some p.va else none

/-- The host pages a load reads (R312). -/
def hostPages (aps : List (List Phys)) : List Nat :=
  (aps.flatten).filterMap fun p => if regionOf p.pa = .host then some ((p.pa - 0x8000000000) / 2048) else none

/-- The byte addresses in host memory that a load reads (R216). -/
def hostAddrs (aps : List (List Phys)) : List Nat :=
  (aps.flatten).filterMap fun p => if regionOf p.pa = .host then some (2 * (p.pa - 0x8000000000)) else none

/-- An engine waits for a host-window load: its read is sent, or first a request for its translation (R217, R312, R381). (DEDUCED, log 184) -/
def startHostLoad (s : State) (e : EngId) (p : PendLoad) : State :=
  let asked := !s.fn.atsOn || s.atsCached p.inst p.pages
  let s := if asked then s.send (.hostLoad p.pasid p.addrs (s.atsVia p.inst p.pages)) else s.hostAsk p.inst p.pages
  (onHostLoad s e).modEng e fun x => { x with run := .hostWait { p with asked := asked } }

/-- The engines whose host-window loads a change of PASID waits for (R292). -/
def State.pasidLoads (s : State) : List Nat :=
  match (s.instAt 0).busy with
  | some b => match b.wait with
    | .pasid l => l
    | _ => []
  | none => []

/-- An invalidation request, or a change of PASID, waits for the host-window load of an engine (R292, R313). -/
def State.awaitsLoad (s : State) (e : EngId) : Bool :=
  (s.fn.invals.any fun x => x.loads.contains e.val) || s.pasidLoads.contains e.val

/-- The invalidation requests that wait for no load any more are completed (R313). -/
def State.invalsEnd (s : State) : State :=
  let done := s.fn.invals.filter fun x => decide (x.loads = [])
  done.foldl (fun s x => s.send (.atsDone x.itag)) { s with fn := { s.fn with invals := s.fn.invals.filter fun x => x.loads ≠ [] } }

/-- An engine's host-window load has completed (R292, R313): what waited for it goes on. -/
def State.loadEnded (s : State) (e : EngId) : State :=
  if !s.awaitsLoad e then s
  else
    let invals := s.fn.invals.map fun x => { x with loads := x.loads.filter (· ≠ e.val) }
    let s := State.invalsEnd { s with fn := { s.fn with invals := invals } }
    let l := s.pasidLoads.filter (· ≠ e.val)
    match (s.instAt 0).busy with
    | some b =>
      if !s.pasidLoads.contains e.val then s
      else if l = [] then s.complete 0 { status := .ok, tag := b.tag, op := b.op, detail := 0, result := b.result }
      else s.modInst 0 fun i => { i with busy := some { b with wait := .pasid l } }
    | none => s

/-- The host answers a load that waited for its translation (R312): what it translated is kept, but for what an invalidation or a change
of PASID has since dropped (R292, R313), and the read is sent. (DEDUCED, log 184) -/
def hostTranslated (s : State) (e : EngId) (p : PendLoad) : State :=
  if p.asked then s
  else
    let gone := fun (q : Nat) => s.pasidLoads.contains e.val || s.fn.invals.any fun x =>
      x.loads.contains e.val && decide (x.inst = p.inst) && decide (x.page ≤ q) && decide (q < x.page + x.pages)
    let s := p.pages.foldl (fun s q => if gone q || s.atsHas p.inst q then s else s.atsKeep p.inst q) s
    s.send (.hostLoad p.pasid p.addrs (s.atsVia p.inst p.pages))

/-- The engines that wait for a host-window load of an instance that meets a test, by number. -/
def State.loadsOf (s : State) (n : Nat) (t : PendLoad → Bool) : List Nat :=
  s.eng.filterMap fun x => match x.2.run with
    | .hostWait p => if decide (p.inst = n) && t p then some x.1 else none
    | _ => none

/-- A load that raises ACCESS reason HOST is charged 16,000 steps when the exception is taken, or overruns (R179). (DEDUCED, log 158) -/
def hostRefused (s : State) (e : EngId) (len : Nat) (exc : Exc) : State :=
  let x := s.engAt e
  if !x.metered then takeExc s e len exc
  else if x.meter.charge.toNat + 16000 > x.meter.budget.toNat then takeOverrun s e len
  else
    takeExc (s.setEng e ({ x with meter := { x.meter with charge := x.meter.charge + 16000#32 } }.count
      (perfKeys e) 0x0F 16000)) e len exc

/-- An event that keeps the instruction at the point from executing. (DESIGN CHOICE, log 19) -/
def divert (s : State) (e : EngId) (len : Nat) : Divert → State
  | .halt cause => haltEng s e cause
  | .exc x => if x.isHostLoad then hostRefused s e len x else takeExc s e len x

/-- The engine can issue: it runs and its domain has power. -/
def canIssue (s : State) (e : EngId) : Bool := decide ((s.engAt e).run = .running) && engPowered s e

/-- A charge would take a metered job above its budget (R110). -/
def overruns (x : Engine) (chg : Nat) : Bool := x.metered && decide (x.meter.charge.toNat + chg > x.meter.budget.toNat)

/-- A halt asked for is taken once the engine stands at a point (R469), never between a branch and its slot (R104), and after a machine
check of its fetch there (R106). -/
def settleHalt (s : State) (e : EngId) : State :=
  let x := s.engAt e
  if x.haltAsked && decide (x.run = .running ∨ x.run = .waiting) && !betweenSlot s e then
    match pointMc s e with
    | some exc =>
      let t := takeExc s e (peekLen s e x.pc) exc
      if (t.engAt e).run = .running then haltEng t e 1 else t
    | none => haltEng s e 1
  else s

/-! ### Interrupts (R103, R104, R146, R362) -/

/-- The interrupt lines in order of priority (R146). -/
def linePriority : List Nat := [9, 11, 10, 1, 0, 13, 8, 12, 2, 3]

/-- The line an interrupt at this engine would take. -/
def takenLine (x : Engine) : Option Nat := linePriority.find? fun l => (x.ctrl.ipend &&& x.ctrl.imask).getLsbD l

/-- An interrupt can be taken at the point (R104, R146, R471): a string instruction in a delay slot takes none between its
elements. (DESIGN CHOICE, log 167) -/
def canInterrupt (s : State) (e : EngId) : Bool :=
  let x := s.engAt e
  x.psr.ie && !x.psr.hl && decide (x.psr.mode ≠ .machine) && !betweenSlot s e && decide (x.stepLeft = 0)

/-- The interrupt of a line is taken at the point (R140, R146); a divide in the divider may be abandoned for it (R103). -/
def takeInterrupt (s : State) (e : EngId) (l : Nat) (abandon : Bool) : State :=
  let s := drainAll s e
  let x := (s.engAt e).count (perfKeys e) 0x0B 1
  let x := if abandon then x.count (perfKeys e) 0x0A 1 else x
  let cont := x.npc.getD (x.pc + BitVec.ofNat 48 (peekLen s e x.pc))
  s.setEng e { enterKernel x .intr 0x10 l 0 0 0x080 x.pc cont with
    skipDbg := false, skipWp := false, pmcDue := if l = 3 then none else x.pmcDue }

/-- A PMC interrupt that must be taken before the instruction at the point retires, which may be a branch whose slot then would be the
one too many: the line it is taken on (R104, R362). (DEDUCED, log 173; DEDUCED, log 175) -/
def pmcNow (s : State) (e : EngId) (branch : Bool) : Option Nat :=
  let x := s.engAt e
  if (x.pmcDue = some 0 ∨ (x.pmcDue = some 1 ∧ branch = true)) ∧ (x.ctrl.ipend &&& x.ctrl.imask).getLsbD 3 = true ∧ canInterrupt s e = true
  then takenLine x else none

/-! ### Execution -/

/-- An instruction that has passed every check executes, its words fetched: it waits for the host window, raises an exception
of its own, overruns the budget, gives way to a PMC interrupt that has waited its 6 instructions (R106, R362), or takes effect and
retires. A load that waits for the host overruns at once only where both of its outcomes would (R110, R179). (DESIGN CHOICE, log 2) -/
def execute (s : State) (e : EngId) (sh : Shape) (pl : Plan) (fps : List Phys) (aps : List (List Phys))
    (fl : Flow) (body : Regs → List (List Phys) → State → Except Exc State) : State :=
  let x := s.engAt e
  let rd := readView x e sh
  let chg := chargeOf x e sh pl fps aps
  let irq := pmcNow s e sh.branch
  let s := s.setEng e ((fetchLines s x e fps).issued (isSecond x e sh))
  match pl.dst, (aps.flatten).find? fun p => decide (regionOf p.pa = .host) with
  | some dst, some _ =>
    if !sh.unmetered && overruns x (min chg 16000) then takeOverrun s e sh.len
    else match irq with
    | some l => takeInterrupt s e l false
    | none =>
      let s := drainAll s e
      let p : PendLoad :=
        { dst := dst, inst := x.ctrl.hinst.toNat, vas := hostVas aps
          words := hostAwait s e aps, upd := pl.upd, regs := rd, sh := sh, charge := chg
          fetchPa := (fps.head?.map (·.pa)).getD 0, pages := hostPages aps, addrs := hostAddrs aps
          pasid := s.pasidOf x.ctrl.hinst.toNat }
      startHostLoad s e p
  | _, _ =>
    match body rd aps s with
    | .error exc => takeExc s e sh.len exc
    | .ok t =>
      if !sh.unmetered && overruns x chg then takeOverrun s e sh.len
      else match irq with
      | some l => takeInterrupt s e l false
      | none => retire t e x sh fps chg fl

/-- An annulled delay slot stands at the point: its breakpoint (R472), or its retirement as a no-operation (R89). -/
def annulledSlot (s : State) (e : EngId) (len : Nat) : State :=
  match bpCause (s.engAt e) with
  | some c => haltEng s e c
  | none => settleHalt (retireAnnulled s e len) e

/-- An instruction at the point of an engine: nothing issues on an engine that is halted, waiting, stopped or without
power; an annulled slot meets a breakpoint (R472) or retires as a no-operation; a diverted instruction changes nothing else; else it
executes. (DESIGN CHOICE, log 2) -/
def issue (sh : Shape) (plan : Regs → Engine → Plan) (flow : Regs → Engine → Flow)
    (body : Regs → List (List Phys) → State → Except Exc State) (e : EngId) (s : State) : State :=
  let x := s.engAt e
  if !canIssue s e then s
  else if x.slot && x.annul then annulledSlot s e sh.len
  else
    let rd := readView x e sh
    let pl := plan rd x
    settleHalt (match checkInstr s e sh pl with
      | .error d => divert s e sh.len d
      | .ok (fps, aps) => execute s e sh pl fps aps (flow rd x) body) e

/-- The answer of a meaning. -/
abbrev Result := Host.Outcome State Fault Refusal

/-- An instruction that touches only its engine's registers. -/
def issueRegs (sh : Shape) (plan : Regs → Engine → Plan) (f : Regs → Regs → Regs) (e : EngId) (s : State) : Result :=
  .next (issue sh plan (fun _ _ => .seq)
    (fun rd _ s => .ok (s.modEng e fun x => { x with regs := f rd x.regs })) e s)

end Sys2Proof.Machine
end

