-- ==== Sys2Proof/Machine/Operands.lean ====
section
/-! DEFINITION. The operand forms: register access (R116, R120), the instruction formats' words (R130, R155 to R171), the
addressing modes (R134), and the shared shapes of the register instructions. -/
namespace Sys2Proof.Machine

/-! ### Registers -/

/-- w n. -/
def Regs.rw (r : Regs) (n : Nat) : Word := tblGet 0#16 r.w n
/-- w n written. -/
def Regs.setW (r : Regs) (n : Nat) (x : Word) : Regs := { r with w := tblSet 0#16 r.w n x }
/-- l n, the pair w 2n + 1 and w 2n (R21). -/
def Regs.rl (r : Regs) (n : Nat) : Long := r.rw (2 * n + 1) ++ r.rw (2 * n)
/-- l n written: both words of its pair (R21). -/
def Regs.setL (r : Regs) (n : Nat) (x : Long) : Regs :=
  (r.setW (2 * n) (x.extractLsb' 0 16)).setW (2 * n + 1) (x.extractLsb' 16 16)
/-- a n. -/
def Regs.ra (r : Regs) (n : Nat) : Addr := tblGet 0#48 r.a n
/-- a n written. -/
def Regs.setA (r : Regs) (n : Nat) (x : Addr) : Regs := { r with a := tblSet 0#48 r.a n x }
/-- k n. -/
def Regs.rk (r : Regs) (n : Nat) : Rod := tblGet 0#80 r.k n
/-- k n written. -/
def Regs.setK (r : Regs) (n : Nat) (x : Rod) : Regs := { r with k := tblSet 0#80 r.k n x }
/-- e n. -/
def Regs.re (r : Regs) (n : Nat) : Word := tblGet 0#16 r.e n
/-- e n written. -/
def Regs.setE (r : Regs) (n : Nat) (x : Word) : Regs := { r with e := tblSet 0#16 r.e n x }
/-- Lane i of v n. -/
def Regs.rv (r : Regs) (n i : Nat) : Word := tblGet 0#16 r.v (16 * n + i)
/-- Lanes of v n written where `f` gives a value. -/
def Regs.setV (r : Regs) (n : Nat) (f : Nat → Option Word) : Regs :=
  { r with v := (List.range 16).foldl (fun t i => match f i with
      | some x => tblSet 0#16 t (16 * n + i) x
      | none => t) r.v }
/-- Lane i of u n. -/
def Regs.ru (r : Regs) (n i : Nat) : BitVec 48 := tblGet 0#48 r.u (16 * n + i)
/-- Lanes of u n written where `f` gives a value. -/
def Regs.setU (r : Regs) (n : Nat) (f : Nat → Option (BitVec 48)) : Regs :=
  { r with u := (List.range 16).foldl (fun t i => match f i with
      | some x => tblSet 0#48 t (16 * n + i) x
      | none => t) r.u }
/-- p n. -/
def Regs.rp (r : Regs) (n : Nat) : Word := tblGet 0#16 r.p n
/-- p n written. -/
def Regs.setP (r : Regs) (n : Nat) (x : Word) : Regs := { r with p := tblSet 0#16 r.p n x }
/-- q n. -/
def Regs.rq (r : Regs) (n : Nat) : Stepper := tblGet {} r.q n
/-- q n written. -/
def Regs.setQ (r : Regs) (n : Nat) (x : Stepper) : Regs := { r with q := tblSet {} r.q n x }
/-- SW written. -/
def Regs.setFl (r : Regs) (f : Flags) : Regs := { r with fl := f }

/-- A word with bit i taken from `f i`. -/
def wordOfBits (f : Nat → Bool) : Word :=
  BitVec.ofNat 16 ((List.range 16).foldl (fun t i => t + (f i).toNat * 2 ^ i) 0)

/-! ### Words of the formats (R130) -/

/-- Format S: OP, D, S. -/
def encS (op d s : Nat) : List Word := [BitVec.ofNat 16 (op * 1024 + d * 32 + s)]
/-- Format SI. -/
def encSI (op d : Nat) (i : BitVec 5) : List Word := [BitVec.ofNat 16 (op * 1024 + d * 32 + i.toNat)]
/-- Format SM. -/
def encSM (op t a : Nat) (inc : Bool) : List Word := [BitVec.ofNat 16 (op * 1024 + t * 32 + a * 2 + inc.toNat)]
/-- Format SV. -/
def encSV (op vd vb x : Nat) : List Word := [BitVec.ofNat 16 (op * 1024 + vd * 64 + vb * 4 + x)]
/-- SFX (R132). -/
def sfxCode : Sfx → Nat
  | .mw => 0
  | .s => 1
  | .w => 2
/-- Format L. -/
def encL (op fn d s t : Nat) (x : Sfx) (rnd : BitVec 3) : List Word :=
  [BitVec.ofNat 16 (op * 1024 + d * 32 + s), BitVec.ofNat 16 (fn * 1024 + t * 32 + sfxCode x * 8 + rnd.toNat)]
/-- Format L of an instruction with no suffix and no rounding. -/
def encL0 (op fn d s t : Nat) : List Word := encL op fn d s t .mw 0#3
/-- Format LI. -/
def encLI (op d s : Nat) (i : Word) : List Word := [BitVec.ofNat 16 (op * 1024 + d * 32 + s), i]
/-- The Z and PE bits and the P field of a long lane form. -/
def maskBits : LMask → Nat × Nat
  | .all => (0, 0)
  | .pred p z => (2 * z.toNat + 1, p.val)
/-- Format LV. -/
def encLV (op fn vd va vb : Nat) (m : LMask) (x : Sfx) (rnd : BitVec 3) : List Word :=
  [BitVec.ofNat 16 (op * 1024 + vd * 64 + va * 4 + (maskBits m).1),
   BitVec.ofNat 16 (fn * 2048 + vb * 128 + (maskBits m).2 * 32 + sfxCode x * 8 + rnd.toNat)]
/-- Format B. -/
def encB (op cond : Nat) (annul : Bool) (d : BitVec 21) : List Word :=
  [BitVec.ofNat 16 (op * 1024 + cond * 64 + annul.toNat * 32 + d.toNat / 65536), d.extractLsb' 0 16]
/-- Format X. -/
def encX (op d s : Nat) (i : Long) : List Word :=
  [BitVec.ofNat 16 (op * 1024 + d * 32 + s), i.extractLsb' 0 16, i.extractLsb' 16 16]
/-- Format XM. -/
def encXM (op t : Nat) (b : XBase) : List Word :=
  match b with
  | .reg a d => [BitVec.ofNat 16 (op * 1024 + t * 32 + a.val * 2), d.extractLsb' 0 16, d.extractLsb' 16 16]
  | .pc d => [BitVec.ofNat 16 (op * 1024 + t * 32 + 1), d.extractLsb' 0 16, d.extractLsb' 16 16]
/-- Word 1 of format LM (R134). -/
def amodeWord : AMode → Word
  | .ind => 0#16
  | .post => 0x2000#16
  | .pre => 0x4000#16
  | .disp d => BitVec.ofNat 16 (0x6000 + d.toNat)
  | .idx m s => BitVec.ofNat 16 (0x8000 + m.val * 256 + s.val * 64)
  | .mpost d => BitVec.ofNat 16 (0xA000 + d.toNat)
  | .ring d m => BitVec.ofNat 16 (0xC000 + m.toNat * 512 + d.toNat)
/-- Format SM or LM of a load or store. -/
def encMem (opS opL t : Nat) (m : MemOp) : List Word :=
  match m with
  | .sm a inc => encSM opS t a.val inc
  | .lm a am => [BitVec.ofNat 16 (opL * 1024 + t * 32 + a.val * 2), amodeWord am]

/-! ### Addressing modes (R134, R135) -/

/-- An effective address and the address register it updates. -/
structure Ea where
  va : Addr
  upd : Option (Nat × Addr) := none
  bad : Bool := false
  deriving DecidableEq, Repr

/-- The effective address of an LM mode for an access of z words; a ring exponent of 0 is reserved (R134). -/
def amodeEa (r : Regs) (a z : Nat) (m : AMode) : Ea :=
  let b := r.ra a
  match m with
  | .ind => { va := b }
  | .post => { va := b, upd := some (a, b + BitVec.ofNat 48 z) }
  | .pre => { va := b - BitVec.ofNat 48 z, upd := some (a, b - BitVec.ofNat 48 z) }
  | .disp d => { va := b + d.signExtend 48 }
  | .idx w s => { va := b + ((r.rw w.val).signExtend 48 <<< s.val) }
  | .mpost d => { va := b, upd := some (a, b + d.signExtend 48) }
  | .ring d m =>
    let n := 2 ^ m.toNat
    let low := (b.toNat % n + (d.signExtend 48).toNat) % n
    { va := b, upd := some (a, BitVec.ofNat 48 (b.toNat - b.toNat % n + low)), bad := decide (m = 0#4) }

/-- The effective address of a word or long operand. -/
def memEa (m : MemOp) (r : Regs) (z : Nat) : Ea :=
  match m with
  | .sm a false => amodeEa r a.val z .ind
  | .sm a true => amodeEa r a.val z .post
  | .lm a am => amodeEa r a.val z am

/-- The effective address of format XM and of LEA (R134, R164). -/
def xbaseEa (b : XBase) (r : Regs) (pc : Addr) : Addr :=
  match b with
  | .reg a d => r.ra a.val + d.signExtend 48
  | .pc d => pc + d.signExtend 48

/-- An address register updated. -/
def Regs.setUpd (r : Regs) (u : Option (Nat × Addr)) : Regs :=
  match u with
  | some (n, x) => r.setA n x
  | none => r

/-! ### Shapes of the register instructions -/

/-- A word result and flags (R153). -/
def wordOp (words : List Word) (base : Nat) (d : Nat) (f : Regs → Word × Flags) (e : EngId) (s : State) : Result :=
  issueRegs { words := words, base := base, writes := [.w d, .sw] } (fun _ _ => {})
    (fun rd r => (r.setW d (f rd).1).setFl (f rd).2) e s

/-- A word result, flags unchanged (R26, R152). -/
def wordMove (words : List Word) (base : Nat) (d : Nat) (f : Regs → Word) (e : EngId) (s : State) : Result :=
  issueRegs { words := words, base := base, writes := [.w d] } (fun _ _ => {}) (fun rd r => r.setW d (f rd)) e s

/-- A long result and flags (R154). -/
def longOp (words : List Word) (base : Nat) (d : Nat) (f : Regs → Long × Flags) (e : EngId) (s : State) : Result :=
  issueRegs { words := words, base := base, writes := [.w (2 * d), .w (2 * d + 1), .sw] } (fun _ _ => {})
    (fun rd r => (r.setL d (f rd).1).setFl (f rd).2) e s

/-- A long result, flags unchanged. -/
def longMove (words : List Word) (base : Nat) (d : Nat) (f : Regs → Long) (e : EngId) (s : State) : Result :=
  issueRegs { words := words, base := base, writes := [.w (2 * d), .w (2 * d + 1)] } (fun _ _ => {})
    (fun rd r => r.setL d (f rd)) e s

/-- Flags only. -/
def flagOp (words : List Word) (f : Regs → Flags) (e : EngId) (s : State) : Result :=
  issueRegs { words := words, base := 1, writes := [.sw] } (fun _ _ => {}) (fun rd r => r.setFl (f rd)) e s

/-- An address result; instructions that write only address registers never change SW (R118). -/
def addrMove (words : List Word) (d : Nat) (f : Regs → Addr) (e : EngId) (s : State) : Result :=
  issueRegs { words := words, base := 1, writes := [.a d] } (fun _ _ => {}) (fun rd r => r.setA d (f rd)) e s

/-- A rod result and flags (R38). -/
def rodOp (words : List Word) (base : Nat) (k : Nat) (lacks : Bool) (f : Regs → Rod × Flags) (e : EngId) (s : State) : Result :=
  issueRegs { words := words, base := base, writes := [.k k, .sw], lacks := lacks } (fun _ _ => {})
    (fun rd r => (r.setK k (f rd).1).setFl (f rd).2) e s

/-- A rod result, flags unchanged. -/
def rodMove (words : List Word) (k : Nat) (f : Regs → Rod) (e : EngId) (s : State) : Result :=
  issueRegs { words := words, base := 1, writes := [.k k] } (fun _ _ => {}) (fun rd r => r.setK k (f rd)) e s

/-- A divide (R42 to R45): with MW.DZT = 1 a zero divisor raises DIVZERO and writes nothing (R44). -/
def divOp (words : List Word) (base : Nat) (writes : List Res) (zero : Regs → Bool) (f : Regs → Regs → Regs) (e : EngId)
    (s : State) : Result :=
  issueRegs { words := words, base := base, writes := writes } (fun rd _ => { divz := rd.mw.dzt && zero rd }) f e s

end Sys2Proof.Machine
end

