-- ==== Sys2Proof/Machine/Branch.lean ====
section
/-! DEFINITION. Branches, jumps, calls and returns (R89 to R93, R119, R133, R160, R161), the branch predictor (R92),
LEA and block repeat (R136, R164). -/
namespace Sys2Proof.Machine

/-- A branch condition on SW (R133). -/
def condHolds (c : Fin 16) (f : Flags) : Bool :=
  match c.val with
  | 0 => f.z
  | 1 => !f.z
  | 2 => f.n != f.v
  | 3 => f.n == f.v
  | 4 => f.z || (f.n != f.v)
  | 5 => !f.z && (f.n == f.v)
  | 6 => !f.c
  | 7 => f.c
  | 8 => !f.c || f.z
  | 9 => f.c && !f.z
  | 10 => f.n
  | 11 => !f.n
  | 12 => f.v
  | 13 => !f.v
  | 14 => f.so
  | _ => true

/-- The tag of the running address space (R92). -/
def predTag (x : Engine) : BitVec 8 := x.ctrl.asid.extractLsb' 0 8 ^^^ (x.ctrl.asid.extractLsb' 8 4).zeroExtend 8

/-- The index of a branch's counter (R92). -/
def predIndex (x : Engine) : Nat := (x.pc.extractLsb' 0 12 ^^^ x.ghist).toNat

/-- The valid entry of the branch target buffer for the branch at the point (R92). -/
def btbHit (x : Engine) : Option BtbEntry :=
  (((List.range 4).map fun i => tblGet {} x.btb (x.pc.toNat % 128 * 4 + i)).find?
    fun b => b.valid && b.pc == x.pc && b.tag == predTag x)

/-- What the predictor says of the branch at the point: the target it follows, if it predicts taken (R92). (DEDUCED, log 13) -/
def predict (x : Engine) (cond : Bool) : Option Addr :=
  let c := tblGet {} x.pctr (predIndex x)
  let dir := !cond || (c.tag == predTag x && decide (2 ≤ c.val.toNat))
  match btbHit x with
  | some b => if dir then some b.target else none
  | none => none

/-- The predictor after a branch has resolved: its counter moves by one towards the outcome, the history shifts, a taken
branch has an entry (which way it replaces is free), and a wrong prediction is counted with the blocks it fetched (R92, R93). (DESIGN CHOICE, log 12; DEDUCED, log 13) -/
def resolve (x : Engine) (e : EngId) (fv : Nat) (cond taken : Bool) (target : Addr) : Engine :=
  let wrong := predict x cond != (if taken then some target else none)
  let tag := predTag x
  let c := tblGet {} x.pctr (predIndex x)
  let v := c.val.toNat
  let v' := if taken then min 3 (v + 1) else v - 1
  let y := if cond then
      { x with pctr := tblSet {} x.pctr (predIndex x) { val := BitVec.ofNat 2 v', tag := tag }
               ghist := (x.ghist <<< 1) ||| (if taken then 1#12 else 0#12) }
    else x
  let set := x.pc.toNat % 128 * 4
  let way := match (List.range 4).find? fun i => (tblGet {} x.btb (set + i)).valid && (tblGet {} x.btb (set + i)).pc == x.pc with
    | some i => i
    | none => Config.freeNat fv % 4
  let y := if taken then
      { y with btb := tblSet {} y.btb (set + way) { valid := true, tag := tag, pc := x.pc, target := target } } else y
  if wrong then (y.count (perfKeys e) 3 1).count (perfKeys e) 4 (Config.freeNat (fv + 1)) else y

/-- The shape of a branch (R89, R91, R160): its condition and target from the operands; a call writes a14 with the address
after its delay slot (R119). -/
def branchOp (words : List Word) (cond call annul : Bool) (taken : Regs → Bool) (target : Regs → Engine → Addr)
    (e : EngId) (s : State) : Result :=
  .next (issue { words := words, branch := true, slotIll := true, base := 6, writes := if call then [.a 14] else [] }
    (fun _ _ => {})
    (fun rd x => .branch (taken rd) (target rd x) annul)
    (fun rd _ s =>
      let x := s.engAt e
      let slot := x.pc + BitVec.ofNat 48 words.length
      let y := resolve x e s.fv cond (taken rd) (target rd x)
      let y := if call then { y with regs := y.regs.setA 14 (slot + BitVec.ofNat 48 (peekLen s e slot)) } else y
      .ok ({ s with fv := s.fv + 2 }.setEng e y)) e s)

/-- Bcond and BR (R133, R160). -/
def execBcond (e : EngId) (c : Fin 16) (annul : Bool) (d : BitVec 21) (s : State) : Result :=
  branchOp (encB 0x30 c.val annul d) (decide (c.val ≠ 15)) false annul (fun r => condHolds c r.fl)
    (fun _ x => x.pc + d.signExtend 48) e s
/-- CALL (R119, R160). (DEDUCED, log 22) -/
def execCall (e : EngId) (annul : Bool) (d : BitVec 21) (s : State) : Result :=
  branchOp (encB 0x31 15 annul d) false true annul (fun _ => true) (fun _ x => x.pc + d.signExtend 48) e s
/-- JR (R160). -/
def execJr (e : EngId) (a : Fin 16) (s : State) : Result :=
  branchOp (encS 0x0F 0 a.val) false false false (fun _ => true) (fun r _ => r.ra a.val) e s
/-- CALLR (R161): the target is read before a14 is written. -/
def execCallr (e : EngId) (a : Fin 16) (s : State) : Result :=
  branchOp (encS 0x0F 1 a.val) false true false (fun _ => true) (fun r _ => r.ra a.val) e s
/-- RET (R119). -/
def execRet (e : EngId) (s : State) : Result :=
  branchOp (encS 0x0F 2 0) false false false (fun _ => true) (fun r _ => r.ra 14) e s

/-- The words of LEA (R164). -/
def leaWords (d : Fin 16) (b : XBase) : List Word :=
  match b with
  | .reg a i => [BitVec.ofNat 16 (0x3B * 1024 + d.val * 16 + a.val), i.extractLsb' 0 16, i.extractLsb' 16 16]
  | .pc i => [BitVec.ofNat 16 (0x3B * 1024 + 256 + d.val * 16), i.extractLsb' 0 16, i.extractLsb' 16 16]

/-- LEA (R164): the effective address, with no access. -/
def execLea (e : EngId) (d : Fin 16) (b : XBase) (s : State) : Result :=
  .next (issue { words := leaWords d b, writes := [.a d.val] } (fun _ _ => {}) (fun _ _ => .seq)
    (fun rd _ s => .ok (s.modEng e fun x => { x with regs := x.regs.setA d.val (xbaseEa b rd x.pc) })) e s)

/-- The count of an RPT. -/
def rptCount (c : RptCount) (r : Regs) : Word :=
  match c with
  | .imm n => n
  | .reg w => r.rw w.val
/-- The words of RPT (R164). (DEDUCED, log 22) -/
def rptWords (c : RptCount) (o : Word) : List Word :=
  match c with
  | .imm n => [BitVec.ofNat 16 (0x3B * 1024 + 512), n, o]
  | .reg w => [BitVec.ofNat 16 (0x3B * 1024 + 768 + w.val), 0#16, o]

/-- RPT (R136, R164): BRS, BRE and BRC loaded; a count of 0 continues after the instruction at BRE. An end offset below 3
raises ILLEGAL. (DESIGN CHOICE, log 168) -/
def execRpt (e : EngId) (c : RptCount) (o : Word) (s : State) : Result :=
  .next (issue { words := rptWords c o, base := 2, writes := [.br] }
    (fun _ _ => { illegal := decide (o.toNat < 3) })
    (fun rd _ => if rptCount c rd = 0#16 then .done else .seq)
    (fun rd _ s =>
      let x := s.engAt e
      let bre := x.pc + o.zeroExtend 48
      let regs := { x.regs with brs := x.pc + 3#48, bre := bre, brc := rptCount c rd }
      let y := { x with regs := regs }
      .ok (s.setEng e (if rptCount c rd = 0#16 then
        { y with pc := bre + BitVec.ofNat 48 (peekLen s e bre), npc := none, pair := none } else y))) e s)

end Sys2Proof.Machine
end

