-- ==== Sys2Proof/Machine/Domains.lean ====
section
/-! DEFINITION. Power domains (R406, R407), what a domain loses when it goes down, the core's loss of supply (R404, R418, R493),
and a restart by SYS_RESET_N or power-on (R322, R431). -/
namespace Sys2Proof.Machine

/-- Memory words of a range lost: they read as unwritten again, and are not uncorrectable. (DEDUCED, log 83) -/
def State.wipe (s : State) (lo hi : Nat) : State :=
  { s with
    mem := s.mem.filter fun c => !(decide (2 * lo ≤ c.1) && decide (c.1 < 2 * hi))
    bad := s.bad.filter fun b => !(decide (lo ≤ b.1) && decide (b.1 < hi)) }

/-- The retention slots that hold a bank, with the bank (R415). -/
def State.retained (s : State) : List (Nat × Nat) := s.slotsOn.map fun k => (k, fld (s.reg (0x010410 + k)) 0 8)

/-- The words of a bank (R193, R415): a frame-store bank, or a steward memory, which stands at its pair's copy A (R454). -/
def bankWords (bank : Nat) : Nat × Nat :=
  if bank < 192 then (0x4000000000 + bank * 0x40000, 0x40000)
  else (0x4E00000000 + (bank - 192) / 2 * 0x80000, 0x40000)

/-- A frame goes down (R406): its engines, its local stores, every bank of its store that is not retained, its registers and counters, its
courier channels, its pace report. -/
def State.frameOff (s : State) (f : Nat) : State :=
  let kept := s.retained.map Prod.snd
  let s := (List.range 8).foldl (fun s i => s.setEng (reckoner (f * 8 + i)) {}) s
  let s := s.wipe (0x4800000000 + f * 0x100000) (0x4800000000 + (f + 1) * 0x100000)
  let s := (List.range 8).foldl (fun s n =>
    if kept.contains (f * 8 + n) then s
    else s.wipe (bankWords (f * 8 + n)).1 ((bankWords (f * 8 + n)).1 + 0x40000)) s
  let lo := 0x200000 + f * 0x10000
  let s := { s with
    csr := s.csr.filter fun x => !(decide (lo ≤ x.1) && decide (x.1 < lo + 0x10000))
    cnt := s.cnt.filter fun x => !(decide (2688 + 8 * f ≤ x.1) && decide (x.1 < 2696 + 8 * f))
    cur := s.cur.filter fun x => x.1 / 16 != f
    clk := { s.clk with fired := s.clk.fired.filter fun x => x.1 / 8 != f } }
  (s.setReg (0x020010 + f) 0#16).modFrame f fun x => { x with powered := false, poweringUp := false }

/-- The agents' shadows of a frame's groups cleared at its power-up (R290). -/
def State.frameShadows (s : State) (f : Nat) : State :=
  s.clearShadows fun k => !(decide (0x200000 + f * 0x10000 ≤ k % 0x4000000) && decide (k % 0x4000000 < 0x210000 + f * 0x10000))

/-- A frame's power-up begins (R407). -/
def State.frameStartUp (s : State) (f : Nat) : State :=
  let x := s.frameAt f
  if (x.st = 2 ∨ x.st = 3) ∧ x.powered = false ∧ x.poweringUp = false then s.setFrame f { x with poweringUp := true } else s

/-- Where the resident kernel begins on a reckoner, and the stewards' firmware on a pair: the image's, with no place given. -/
def State.kernelEntry (s : State) (kind field : Nat) : Addr :=
  match tblFind s.cf.active (kind * 64) with
  | some a => BitVec.ofNat 48 ((a.fields.getD field 0))
  | none => 0#48

/-- The start-up sequence starts an engine (R121). -/
def State.startEngine (s : State) (e : EngId) (pc : Addr) : State :=
  settleHalt (s.modEng e fun x => { x with run := .running, pc := pc }) e

/-- A frame's memories zero-filled (R407): its local stores and every bank of its store. -/
def State.frameZero (s : State) (f : Nat) : State :=
  (s.wipe (0x4800000000 + f * 0x100000) (0x4800000000 + (f + 1) * 0x100000)).wipe (bankWords (f * 8)).1 ((bankWords (f * 8)).1 + 8 * 0x40000)

/-- Words of a piece placed in a memory of `size` words from `base` on, at the place that its field names; what would stand past the
memory's end is left out. (DESIGN CHOICE, log 46) -/
def State.placePiece (s : State) (base size field : Nat) (octets : List Byte) : State :=
  let at_ := Config.pieceField octets field % size
  s.writeMem (base + at_) ((octetsWords octets).take (size - at_))

/-- A resident kernel placed in a frame's store (R437). (DESIGN CHOICE, log 46) -/
def State.placeKernel (s : State) (f : Nat) (octets : List Byte) : State := s.placePiece (bankWords (f * 8)).1 (8 * 0x40000) 3 octets

/-- A reckoner of a frame powered up runs the kernel in service (R121, R437). -/
def State.startReckoner (s : State) (r : Nat) : State :=
  let v := match tblFind s.cf.active (3 * 64) with | some a => a.pver | none => 0#16
  State.startEngine { s with cf := { s.cf with kernels := tblSet 0#16 s.cf.kernels r v } } (reckoner r) (s.kernelEntry 3 0)

/-- A frame's power-up completes (R407, R397): the kernel in service placed in its store, its reckoners started, back at the next round; or
out of service, and without power again (R409). (DEDUCED, log 81) -/
def State.framePowered (s : State) (f : Nat) (ok : Bool) : State :=
  let s := s.frameShadows f
  let s := s.modFrame f fun x => { x with powered := ok, poweringUp := false, back := ok, recal := false, st := if ok then x.st else 3 }
  if ok then
    let s := match tblFind s.cf.active (3 * 64) with | some a => s.placeKernel f a.octets | none => s
    let s := match s.cf.acts.find? fun a => decide (a.piece.kind = 3) with | some a => s.placeKernel f a.piece.octets | none => s
    (List.range 8).foldl (fun s i => s.startReckoner (f * 8 + i)) s
  else s.setBit 0x020001 0

/-- A frame leaves service for good (R397, R409, R460): it goes down from STATE 2, and reads out of service. -/
def State.frameRetired (s : State) (f : Nat) : State := (s.frameOff f).modFrame f fun x => { x with st := 3, back := false }

/-- The steward pairs that have power outside Park (R409): those the image names, active or standby; every pair in Park. -/
def State.pairDomains (s : State) : State :=
  [0, 1, 2, 3].foldl (fun s p =>
    if s.parked || (tblFind s.cf.active 64).isNone || decide (s.params 20 / 2 ^ p % 2 = 1) || decide (s.params 13 / 2 ^ p % 2 = 1) then
      s.setBit 0x02000C (8 + p)
    else
      State.clrBit ((s.setEng (stewardPair p) {}).wipe (bankWords (192 + 2 * p)).1 ((bankWords (192 + 2 * p)).1 + 0x40000)) 0x02000C (8 + p)) s

/-- Everything outside the always-on domain is lost (R406); the banks named keep their words, DRAM where asked. The flash, the
journal's region and the fuses keep theirs, and what the Night Porter holds for the next start. (DEDUCED, log 83) -/
def State.coreLost (s : State) (kept : List Nat) (dram : Bool) : State :=
  let keepMem := fun (a : Nat) =>
    (dram && decide (a < 0x4000000000)) || kept.any fun b => decide ((bankWords b).1 ≤ a) && decide (a < (bankWords b).1 + 0x40000)
  { s with
    eng := [], frames := [], cnt := [], boards := [], blocks := [], posts := [], cur := [], inst := []
    mem := s.mem.filter fun c => keepMem (c.1 / 2)
    bad := s.bad.filter fun b => keepMem b.1
    csr := (resetRegs.filter fun x => decide (x.1 / 65536 ≠ 1)).foldl (fun t x => tblSet 0#16 t x.1 x.2)
      (tblSet 0#16 (s.csr.filter fun x => decide (x.1 / 65536 = 1)) 0x3C0000 (s.reg 0x3C0000 &&& 0x8000#16))
    sn := {}, ik := {}, gh := {}, ty := {}, fn := { perstLow := s.fn.perstLow }
    jr := { nor := s.jr.nor, norWp := s.jr.norWp, toJournal := s.jr.toJournal, npRecord := s.jr.npRecord }
    cf := { hdr := s.cf.hdr, flash := s.cf.flash, svn := s.cf.svn, startAt := s.cf.startAt, nightSlot := s.cf.nightSlot, startCause := s.cf.startCause }
    tw := { kickOff := s.tw.kickOff, fenced := s.tw.fenced }
    clk := { s.clk with fired := [] }
    pw := { s.pw with stageAt := 0, calmAt := none, recalAt := 0, recalNext := 0, dbgSel := none, dbgWait := none, sensed := false
                      wakeKicks := [], repairs := [], fullAsked := false, parkAsked := false } }

/-- Enabled retention slots marked lost (R414, R418). -/
def State.slotsLost (s : State) : State := s.slotsOn.foldl (fun s k => s.setBit 0x010404 k) s

/-- Live pieces of both slots are in service: the next start by reset reverts them (R434). (DEDUCED, log 85) -/
def State.noteMixed (s : State) : State :=
  if s.bit 0x030000 10 then { s with jr := { s.jr with toJournal := s.jr.toJournal ++ [(6, 0, 0)] } } else s

/-- The device restarts (R322, R434): every domain but the always-on one is reset. (DEDUCED, log 83) -/
def State.restarted (s : State) (cause : Nat) : State :=
  let night := decide (s.pw.wake ≠ .awake) && decide (s.pw.wake ≠ .off)
  let s := if night then s.slotsLost else s
  let s := s.noteMixed.coreLost [] false
  { s with
    cf := { s.cf with startAt := s.time, startCause := cause }
    pw := { s.pw with wake := .off } }

/-- What SYS_RESET_N ends, and no other restart: a fence and KICK being ignored (R452), the balls taken by the scan (R480), CHECK_BROKEN
(R476), and the compare points that ignore differences (R473). (DEDUCED, log 83) -/
def State.unfenced (s : State) : State :=
  let s := s.clrBit 0x3C0000 15
  { s with
    tw := { s.tw with kickOff := false, fenced := false }
    pw := { s.pw with unchecked := [], scanTaken := decide (s.pw.scan = .extest) || decide (s.pw.scan = .clamp) || decide (s.pw.scan = .highz) } }

/-- The core supply is lost (R404, R418): VCORE_EN low, the device fenced, the core's state gone. -/
def State.coreOff (s : State) : State :=
  let s := (s.fence.noteMixed).coreLost [] false
  { s with pw := { s.pw with wake := .off, vcoreEn := false } }

end Sys2Proof.Machine
end

