-- ==== Sys2Proof/Machine/Classifier.lean ====
section
/-! DEFINITION. The classifier (R227 to R230): key slots in two tables of buckets and a stash, insertion, lookup, re-key. -/
namespace Sys2Proof.Machine

/-- The octets of a key that the hash covers, in the order R227 names its parts. (DESIGN CHOICE, log 92) -/
def ClassKey.octets (k : ClassKey) : List Byte :=
  [BitVec.ofNat 8 (if k.full then 1 else 0), BitVec.ofNat 8 k.group] ++ beOctets k.vid 2 ++ [BitVec.ofNat 8 (if k.v6 then 6 else 4)] ++
    beOctets k.dst 16 ++ beOctets k.dport 2 ++ (if k.full then beOctets k.src 16 ++ beOctets k.sport 2 else [])

/-- A key's two candidate buckets under a hash key (R228): bits 16:0 and 48:32 of the hash. -/
def ClassKey.buckets (k : ClassKey) (hash : BitVec 128) : List Nat :=
  let h := (sipHash hash k.octets).toNat
  [h % 131072, h / 2 ^ 32 % 131072]

/-- The hash key of a table (R228). -/
def State.tableKey (s : State) (t : Nat) : BitVec 128 := Config.hashKey (if t = 0 then s.gh.hashA else s.gh.hashB)

/-- The active table. -/
def State.activeTable (s : State) : Nat := fld (s.reg 0x080100) 14 1

/-- A re-key runs. -/
def State.rekeying (s : State) : Bool := s.bit 0x080100 15

/-- The table new keys go to: the one being filled, else the active one (R230). (DESIGN CHOICE, log 96) -/
def State.fillTable (s : State) : Nat := if s.rekeying then 1 - s.activeTable else s.activeTable

/-- Where slot k of bucket b of table t is held. -/
def slotKey (t b k : Nat) : Nat := (t * 131072 + b) * 4 + k

/-- The first free slot of a key's candidate buckets (R228). -/
def State.freeSlot (s : State) (t : Nat) (k : ClassKey) : Option Nat :=
  ((k.buckets (s.tableKey t)).flatMap fun b => (List.range 4).map fun i => slotKey t b i).find? fun p => (tblGet none s.gh.keys p).isNone

/-- A key inserted in a table, or in the stash; none when both are full (R228, R229). -/
def State.insertKey (s : State) (t : Nat) (x : KeySlot) : Option State :=
  match s.freeSlot t x.key with
  | some p => some { s with gh := { s.gh with keys := tblSet none s.gh.keys p (some x) } }
  | none => if s.gh.stash.length < 1024 then some { s with gh := { s.gh with stash := s.gh.stash ++ [x] } } else none

/-- Every key slot in use, in the tables and the stash. -/
def State.allKeys (s : State) : List KeySlot := (s.gh.keys.filterMap fun k => k.2) ++ s.gh.stash

/-- A key is present (R227). -/
def State.keyPresent (s : State) (k : ClassKey) : Bool := s.allKeys.any fun x => decide (x.key = k)

/-- One key looked up in the candidate buckets of both tables while a re-key runs, else of the active one, and in the stash (R228,
R230); a slot lost to an error is absent (R457). -/
def State.findKey (s : State) (k : ClassKey) : Option KeySlot :=
  let inTable := fun (t : Nat) =>
    (((k.buckets (s.tableKey t)).flatMap fun b => (List.range 4).map fun i => slotKey t b i).filterMap fun p => tblGet none s.gh.keys p).find? fun x => decide (x.key = k) && !x.absent
  (inTable s.activeTable).or ((if s.rekeying then inTable (1 - s.activeTable) else none).or (s.gh.stash.find? fun x => decide (x.key = k) && !x.absent))

/-- The slot a frame's keys find, in the order of R227: FULL before DEST, a port's own before any port's. -/
def State.classify (s : State) (port vid : Nat) (v6 : Bool) (dst dport src sport : Nat) : Option KeySlot :=
  let key := fun (full : Bool) (g : Nat) =>
    ({ full := full, group := g, vid := vid, v6 := v6, dst := dst, dport := dport, src := if full then src else 0, sport := if full then sport else 0 } : ClassKey)
  [key true port, key true 8, key false port, key false 8].findSome? s.findKey

/-- A re-key starts (R229, R230): hash key n, a number of the free values, for the inactive table, GH_EVT.REKEY_START, its journal
entry; one the manager asked for does not count towards REKEY_MIN_S. -/
def State.startRekeyAt (s : State) (o : Origin) (asked : Bool) (n : Nat) : State :=
  if s.rekeying then s
  else
    let t := 1 - s.activeTable
    let gh := if t = 0 then { s.gh with hashA := n } else { s.gh with hashB := n }
    let gh := { gh with rekeySelf := if asked then s.gh.rekeySelf else some s.now, rekeyAsked := asked }
    let s := ({ s with gh := gh }.setBit 0x080100 15).setBit 0x080101 2
    (s.journalBit o 0x080101 2).decide_ (.rekey n asked)

/-- A re-key starts with a hash key of the device's own choice, free. -/
def State.startRekey (s : State) (o : Origin) : State :=
  if s.rekeying then s else s.drawn.startRekeyAt o (decide (o = .manager)) s.fv

/-- Keys inserted one after the other; none where one finds no place. -/
def State.insertKeys (s : State) (t : Nat) : List KeySlot → Option State
  | [] => some s
  | x :: l =>
    match s.insertKey t x with
    | some u => u.insertKeys t l
    | none => none

/-- The filled table at the end of a re-key (R230): every key of the active table and the stash is in it, or again in the stash; none
while one of them has no place. (DESIGN CHOICE, log 96) -/
def State.refilled (s : State) : Option State :=
  let t := 1 - s.activeTable
  let old := (s.gh.keys.filter fun k => decide (k.1 / 4 / 131072 ≠ t)).filterMap fun k => k.2
  let moved := old ++ s.gh.stash
  { s with gh := { s.gh with keys := s.gh.keys.filter fun k => decide (k.1 / 4 / 131072 = t), stash := [] } }.insertKeys t moved

/-- A re-key completes (R230): the filled table becomes active. While a key has no place in it the re-key runs on, so that no lookup
misses a key that is present. (DESIGN CHOICE, log 96) -/
def State.finishRekey (s : State) (o : Origin) : State :=
  match s.rekeying, s.refilled with
  | true, some u =>
    let u := (u.clrBit 0x080100 15).putBit 0x080100 14 (decide (s.activeTable = 0))
    (u.setBit 0x080101 3).journalBit o 0x080101 3
  | _, _ => s

end Sys2Proof.Machine
end

