-- ==== Sys2Proof/Machine/Queue.lean ====
section
/-! DEFINITION. The input queue of an engine (R113, R114, R509) and messages to it (R115, R170). -/
namespace Sys2Proof.Machine

/-- The queue occupies the top 4 KiW of the engine's own memory (R83, R113, R192). -/
def queueBase (e : EngId) : Nat := ownBase e + (if isReckoner e then 0x1F000 else 0x3F000)

/-- Where slot n begins. -/
def slotBase (e : EngId) (n : Nat) : Nat := queueBase e + n % 32 * 0x80

/-- Slot n holds an unconsumed delivery (R113). -/
def slotValid (s : State) (e : EngId) (n : Nat) : Bool := (s.readMem (slotBase e n)).getLsbD 15

/-- Is the queue full for this source (R114, R509)? An Innkeeper delivery needs the slot at TAIL; any other needs the
four slots from TAIL onward. A steward's queue keeps no slots. -/
def queueFull (s : State) (e : EngId) (source : Nat) : Bool :=
  let t := (s.engAt e).iqTail.toNat
  if source = 3 ∨ isReckoner e = false then slotValid s e t
  else (List.range 4).any fun i => slotValid s e (t + i)

/-- A delivery written into the slot at TAIL, word 0 last, and line IQ requested (R114). -/
def queueWrite (s : State) (e : EngId) (source : Nat) (sender : Word) (stamp : Nat) (data : List Word) : State :=
  let x := s.engAt e
  let b := slotBase e x.iqTail.toNat
  let n := data.length
  let s := s.writeMem (b + 8) data
  let s := s.writeMem (b + 1) (sender :: toWords stamp 6)
  let s := s.writeMem b [BitVec.ofNat 16 (0x8000 + source * 4096 + n)]
  let s := if isReckoner e then s.timerEvent (srcDelivery e.val) 1 else s
  s.modEng e fun x =>
    (({ x with iqTail := x.iqTail + 1#5 }.count (perfKeys e) 0x0C 1).request 0).wake

/-- A delivery refused or dropped because the queue is full: DROP is set (R114). -/
def queueDrop (s : State) (e : EngId) : State :=
  s.modEng e fun x => ({ x with iqDrop := true }.count (perfKeys e) 0x0D 1).wake

/-- A delivery: entered, or dropped; the answer says which. At most 120 data words enter a slot (R113). -/
def deliver (s : State) (e : EngId) (source : Nat) (sender : Word) (stamp : Nat) (data : List Word) : State × Bool :=
  if queueFull s e source then ((if source = 2 then (queueDrop s e).count 3060 1 else queueDrop s e), false)
  else (queueWrite s e source sender stamp (data.take 120), true)

/-- The engine a message target names (R115, R170, R454): none above the last number. -/
def msendTarget (w : Word) : Option EngId :=
  let n := fld w 0 8
  if w.getLsbD 15 then (if n ≤ 7 then some (stewardPair (n / 2)) else none)
  else if n ≤ 191 then some (reckoner n) else none

/-- The engine is out of service: its frame is out of service, or it has stopped in checkstop (R115). -/
def engInService (s : State) (e : EngId) : Bool :=
  engPowered s e && decide ((s.engAt e).run ≠ .checkstop) && !(isReckoner e && decide ((tblGet {} s.frames (engFrame e)).st = 3))

/-- The number an engine's messages carry as SENDER (R113). -/
def senderWord (e : EngId) : Word := BitVec.ofNat 16 (if isReckoner e then e.val else 2 * (e.val - 192))

/-- A message sent (R115): the device after it and its status. -/
def sendMessage (s : State) (src : EngId) (w : Word) (data : List Word) : State × Word :=
  match msendTarget w with
  | none => (s, 2#16)
  | some t =>
    if !engInService s t then (s, 2#16)
    else
      let (stamp, s) := s.readTime
      let r := deliver s t (if isReckoner src then 0 else 1) (senderWord src) stamp data
      (r.1, if r.2 then 0#16 else 1#16)

end Sys2Proof.Machine
end

