-- ==== Sys2Proof/Machine/Rods.lean ====
section
/-! DEFINITION. Rods, residues, the narrowing instructions (R37 to R41, R155, R156) and the ratio steppers (R65 to R68). -/
namespace Sys2Proof.Machine

/-- 2ab (R38). -/
def prod2 (a b : Word) : Int := 2 * a.toInt * b.toInt
/-- ab. -/
def prod1 (a b : Word) : Int := a.toInt * b.toInt

/-- KMAC (R38). -/
def execKmac (e : EngId) (k : Fin 4) (a b : Fin 32) (s : State) : Result :=
  rodOp (encL0 0x2A 0x00 k.val a.val b.val) 1 k.val false (fun r =>
    rodAdd (r.rk k.val) (prod2 (r.rw a.val) (r.rw b.val)) r.fl) e s
/-- KMACI (R38). -/
def execKmaci (e : EngId) (k : Fin 4) (a b : Fin 32) (s : State) : Result :=
  rodOp (encL0 0x2A 0x01 k.val a.val b.val) 1 k.val false (fun r =>
    rodAdd (r.rk k.val) (prod1 (r.rw a.val) (r.rw b.val)) r.fl) e s
/-- KMSU (R38). -/
def execKmsu (e : EngId) (k : Fin 4) (a b : Fin 32) (s : State) : Result :=
  rodOp (encL0 0x2A 0x02 k.val a.val b.val) 1 k.val false (fun r =>
    rodAdd (r.rk k.val) (-prod2 (r.rw a.val) (r.rw b.val)) r.fl) e s
/-- KMSUI (R38). -/
def execKmsui (e : EngId) (k : Fin 4) (a b : Fin 32) (s : State) : Result :=
  rodOp (encL0 0x2A 0x03 k.val a.val b.val) 1 k.val false (fun r =>
    rodAdd (r.rk k.val) (-prod1 (r.rw a.val) (r.rw b.val)) r.fl) e s
/-- KADD (R38): a sign-extended long or a rod. -/
def execKadd (e : EngId) (k : Fin 4) (src : KSrc) (s : State) : Result :=
  rodOp (match src with
      | .l n => encL0 0x2A 0x04 k.val (2 * n.val) 0
      | .k n => encL0 0x2A 0x05 k.val n.val 0) 1 k.val false (fun r =>
    rodAdd (r.rk k.val) (match src with | .l n => (r.rl n.val).toInt | .k n => (r.rk n.val).toInt) r.fl) e s
/-- KCLR (R155). -/
def execKclr (e : EngId) (k : Fin 4) (s : State) : Result :=
  rodMove (encL0 0x2A 0x06 k.val 0 0) k.val (fun _ => 0#80) e s
/-- KMOV (R155). -/
def execKmov (e : EngId) (d a : Fin 4) (s : State) : Result :=
  rodMove (encL0 0x2A 0x07 d.val a.val 0) d.val (fun r => r.rk a.val) e s
/-- KLDW (R22, R155): the word in bits 31:16, sign-extended above. -/
def execKldw (e : EngId) (k : Fin 4) (a : Fin 32) (s : State) : Result :=
  rodMove (encL0 0x2A 0x08 k.val a.val 0) k.val (fun r => (r.rw a.val ++ 0#16).signExtend 80) e s
/-- KLDL (R155). -/
def execKldl (e : EngId) (k : Fin 4) (a : Fin 16) (s : State) : Result :=
  rodMove (encL0 0x2A 0x09 k.val (2 * a.val) 0) k.val (fun r => (r.rl a.val).signExtend 80) e s
/-- MFE (R155). -/
def execMfe (e : EngId) (d : Fin 32) (a : Fin 4) (s : State) : Result :=
  wordMove (encL0 0x2A 0x0A d.val a.val 0) 1 d.val (fun r => r.re a.val) e s
/-- MTE (R155). -/
def execMte (e : EngId) (d : Fin 4) (a : Fin 32) (s : State) : Result :=
  issueRegs { words := encL0 0x2A 0x0B d.val a.val 0, writes := [.e d.val] } (fun _ _ => {})
    (fun rd r => r.setE d.val (rd.rw a.val)) e s

/-- The shape shared by the narrowing instructions (R30, R31, R32): destination `put`, source, shift, mode, suffix,
residue register. A mode of 6 or 7 raises EMULATE. In any mode but RESIDUE the residue is not written (R33). (DEDUCED, log 15) -/
def narrowOp (n : Nat) (words : List Word) (dstW : List Res) (put : Regs → BitVec n → Regs) (src : Regs → Int) (sh : Nat)
    (mode : Regs → BitVec 3) (x : Sfx) (res : Nat) (residue : Bool) (e : EngId) (s : State) : Result :=
  issueRegs { words := words, base := 4, writes := dstW ++ [.sw] ++ (if residue then [.e res] else []) }
    (fun rd _ => { emul := decide (6 ≤ (mode rd).toNat) })
    (fun rd r =>
      let y := narrow n (src rd) sh (mode rd) (saturates x rd.mw) (rd.re res) rd.fl
      let r := (put r y.1).setFl y.2.1
      if mode rd = 5#3 then r.setE res y.2.2 else r) e s

/-- LRND (R39, R155, R156). -/
def execLrnd (e : EngId) (f : LRnd) (s : State) : Result :=
  match f with
  | .s d l j =>
    narrowOp 16 [BitVec.ofNat 16 (0x0E * 1024 + d.val * 32 + j.val * 8 + l.val)] [.w d.val] (fun r y => r.setW d.val y)
      (fun r => (r.rl l.val).toInt) 16 (fun r => r.mw.rnd) .mw j.val true e s
  | .l d l sh j x rnd =>
    narrowOp 16 (encL 0x2A (0x10 + sh.val / 32 * 4 + j.val) d.val (2 * l.val) (sh.val % 32) x rnd) [.w d.val]
      (fun r y => r.setW d.val y) (fun r => (r.rl l.val).toInt) sh.val (fun _ => rnd) x j.val (decide (rnd = 5#3)) e s
/-- RNDW (R39): the rod's own residue register. -/
def execRndw (e : EngId) (f : KRnd 32) (s : State) : Result :=
  match f with
  | .s d k =>
    narrowOp 16 [BitVec.ofNat 16 (0x0D * 1024 + d.val * 32 + k.val * 8)] [.w d.val] (fun r y => r.setW d.val y)
      (fun r => (r.rk k.val).toInt) 16 (fun r => r.mw.rnd) .mw k.val true e s
  | .l d k sh x rnd =>
    narrowOp 16 (encL 0x2A (0x20 + sh.val / 32) d.val k.val (sh.val % 32) x rnd) [.w d.val]
      (fun r y => r.setW d.val y) (fun r => (r.rk k.val).toInt) sh.val (fun _ => rnd) x k.val (decide (rnd = 5#3)) e s
/-- RNDL (R39). -/
def execRndl (e : EngId) (f : KRnd 16) (s : State) : Result :=
  match f with
  | .s d k =>
    narrowOp 32 [BitVec.ofNat 16 (0x0D * 1024 + 2 * d.val * 32 + k.val * 8 + 4)] [.w (2 * d.val), .w (2 * d.val + 1)]
      (fun r y => r.setL d.val y) (fun r => (r.rk k.val).toInt) 0 (fun r => r.mw.rnd) .mw k.val true e s
  | .l d k sh x rnd =>
    narrowOp 32 (encL 0x2A (0x22 + sh.val / 32) (2 * d.val) k.val (sh.val % 32) x rnd) [.w (2 * d.val), .w (2 * d.val + 1)]
      (fun r y => r.setL d.val y) (fun r => (r.rk k.val).toInt) sh.val (fun _ => rnd) x k.val (decide (rnd = 5#3)) e s

/-! ### Ratio steppers -/

/-- k advances at once (R66): the new stepper and the unwrapped phase. -/
def Stepper.advance (q : Stepper) (k : Nat) : Stepper × Nat :=
  let t := q.num.toNat + k * q.inc.toNat
  let phi := q.phi.toNat + t / q.den.toNat
  ({ q with phi := BitVec.ofNat 48 phi, num := BitVec.ofNat 32 (t % q.den.toNat) }, phi)

/-- QRATE with a nonzero denominator (R66). -/
def Stepper.rate (q : Stepper) (inc den : Long) : Stepper :=
  let q := if den = q.den then q
    else { q with num := BitVec.ofNat 32 (q.num.toNat * den.toNat / q.den.toNat), den := den }
  { q with inc := inc }

/-- QSET from its nine words with a nonzero denominator (R66). -/
def Stepper.load (ws : List Word) : Stepper :=
  let d := wordsAt ws 5 2
  let n := wordsAt ws 3 2
  { phi := BitVec.ofNat 48 (wordsAt ws 0 3 + n / d), num := BitVec.ofNat 32 (n % d), den := BitVec.ofNat 32 d
    inc := BitVec.ofNat 32 (wordsAt ws 7 2) }

/-- A stepper as QST stores it (R66). -/
def Stepper.words (q : Stepper) : List Word :=
  toWords q.phi.toNat 3 ++ toWords q.num.toNat 2 ++ toWords q.den.toNat 2 ++ toWords q.inc.toNat 2

/-- QADV (R66): the crossing count from the unwrapped phase. -/
def execQadv (e : EngId) (d : Fin 32) (q : Fin 4) (s : State) : Result :=
  issueRegs { words := encL0 0x2A 0x30 d.val q.val 0, base := 2, writes := [.w d.val, .q q.val] } (fun _ _ => {})
    (fun rd r =>
      let y := (rd.rq q.val).advance 1
      (r.setQ q.val y.1).setW d.val (BitVec.ofNat 16 (y.2 / 65536 - (rd.rq q.val).phi.toNat / 65536))) e s
/-- QADVN (R66). -/
def execQadvn (e : EngId) (q : Fin 4) (l : Fin 16) (s : State) : Result :=
  issueRegs { words := encL0 0x2A 0x31 q.val (2 * l.val) 0, base := 4, writes := [.q q.val] } (fun _ _ => {})
    (fun rd r => r.setQ q.val ((rd.rq q.val).advance (rd.rl l.val).toNat).1) e s
/-- QRATE (R66, R67): a zero denominator sets V and changes nothing else. -/
def execQrate (e : EngId) (q : Fin 4) (a b : Fin 16) (s : State) : Result :=
  issueRegs { words := encL0 0x2A 0x32 q.val (2 * a.val) (2 * b.val), base := 40, writes := [.q q.val, .sw] } (fun _ _ => {})
    (fun rd r =>
      if rd.rl b.val = 0#32 then r.setFl { rd.fl with v := true }
      else r.setQ q.val ((rd.rq q.val).rate (rd.rl a.val) (rd.rl b.val))) e s
/-- QIDX (R66): phase bits 47:16. -/
def execQidx (e : EngId) (d : Fin 16) (q : Fin 4) (s : State) : Result :=
  longMove (encL0 0x2A 0x33 (2 * d.val) q.val 0) 1 d.val (fun r => (r.rq q.val).phi.extractLsb' 16 32) e s
/-- QFRC (R66): phase bits 15:0. -/
def execQfrc (e : EngId) (d : Fin 32) (q : Fin 4) (s : State) : Result :=
  wordMove (encL0 0x2A 0x34 d.val q.val 0) 1 d.val (fun r => (r.rq q.val).phi.extractLsb' 0 16) e s

end Sys2Proof.Machine
end

