-- ==== Sys2Proof/Machine/Loads.lean ====
section
/-! DEFINITION. Loads, stores and atomics (R120, R134, R135, R162, R163), TLB entries as descriptors (R194, R195), the
string instructions (R105, R138, R165), and the end of a load from the host window (R217, R314). -/
namespace Sys2Proof.Machine

/-! ### TLB entries -/

/-- The bits of VA and PA below the page size stored as 0; an entry holds VA and PA from bit 8 up (R194). -/
def pageBase (v size : Nat) : Nat := v - v % 2 ^ (max 8 size)

/-- An entry from its 8-word descriptor (R195). -/
def TlbEntry.ofWords (ws : List Word) : TlbEntry :=
  let a := wordAt ws 0
  let t := wordAt ws 1
  let size := fld a 8 6
  { valid := a.getLsbD 15, size := BitVec.ofNat 6 size, u := a.getLsbD 5, x := a.getLsbD 4, wr := a.getLsbD 3
    r := a.getLsbD 2, dev := a.getLsbD 1, c := a.getLsbD 0, g := t.getLsbD 15, asid := t.extractLsb' 0 12
    va := BitVec.ofNat 48 (pageBase (wordsAt ws 2 3) size)
    pa := BitVec.ofNat 40 (pageBase (wordsAt ws 5 3 % 2 ^ 40) size) }

/-- An entry as an 8-word descriptor (R195). -/
def TlbEntry.words (x : TlbEntry) : List Word :=
  [BitVec.ofNat 16 (x.c.toNat + 2 * x.dev.toNat + 4 * x.r.toNat + 8 * x.wr.toNat + 16 * x.x.toNat + 32 * x.u.toNat
      + 256 * x.size.toNat + 32768 * x.valid.toNat),
   BitVec.ofNat 16 (x.asid.toNat + 32768 * x.g.toNat)] ++ toWords x.va.toNat 3 ++ toWords x.pa.toNat 3

/-- Two entries could match one address under some ASID (R195). -/
def TlbEntry.overlaps (a b : TlbEntry) : Bool :=
  let n := 2 ^ (max a.size.toNat b.size.toNat)
  (a.va.toNat / n == b.va.toNat / n) && (a.g || b.g || a.asid == b.asid)

/-- TLBPUT's write of an entry (R195): a valid one invalidates every other valid entry it overlaps. -/
def tlbWrite (t : Tbl TlbEntry) (i : Nat) (x : TlbEntry) : Tbl TlbEntry :=
  let t := if x.valid then (List.range 64).foldl (fun t j =>
      let y := tblGet {} t j
      if j ≠ i ∧ y.valid = true ∧ y.overlaps x = true then tblSet {} t j { y with valid := false } else t) t
    else t
  tblSet {} t i x

/-! ### The end of a load -/

/-- A loaded value written to its destination after the address register's update (R135). QSET with a zero
denominator sets V and changes nothing else (R67), and outside user mode it is the kernel's load of a job's steppers; TLBPUT of a valid entry with a bad size raises ILLEGAL (R195). (DEDUCED, log 171) -/
def finishLoad (s : State) (e : EngId) (rd : Regs) (dst : LoadDst) (upd : Option (Nat × Addr)) (ws : List Word) :
    Except Exc State :=
  let put (f : Regs → Regs) : Except Exc State := .ok (s.modEng e fun x => { x with regs := f (x.regs.setUpd upd) })
  match dst with
  | .w n => put fun r => r.setW n (wordAt ws 0)
  | .l n => put fun r => r.setL n (BitVec.ofNat 32 (wordsAt ws 0 2))
  | .a n => put fun r => r.setA n (BitVec.ofNat 48 (wordsAt ws 0 3))
  | .k n => put fun r => r.setK n (BitVec.ofNat 80 (wordsAt ws 0 5))
  | .v n => put fun r => r.setV n fun i => some (wordAt ws i)
  | .u n => put fun r => r.setU n fun i => some (BitVec.ofNat 48 (wordsAt ws (3 * i) 3))
  | .q n =>
    if wordsAt ws 5 2 = 0 then .ok (s.modEng e fun x => { x with regs := x.regs.setFl { x.regs.fl with v := true } })
    else .ok (s.modEng e fun x =>
      { x with regs := (x.regs.setUpd upd).setQ n (Stepper.load ws)
               qld := if x.psr.mode = .user then x.qld else x.qld ||| (1#4 <<< n) })
  | .job => .ok (startJob s e ws)
  | .tlb a =>
    let t := TlbEntry.ofWords ws
    if t.valid ∧ (t.size.toNat < 8 ∨ 44 < t.size.toNat) then .error (.kern 4 0 1 none [(encS 0 18 a).headD 0#16, 0#16, 0#16])
    else .ok (s.modEng e fun x => { x with tlb := tlbWrite x.tlb x.ctrl.tlbIdx.toNat t })
  | .msend n =>
    let r := sendMessage (drainAll s e) e (rd.rw n) ws
    .ok (r.1.modEng e fun x => { x with regs := x.regs.setW n r.2 })
  | .movs => .ok s
  | .cmps => .ok s
  | .scans => .ok s

/-- A load: its words read and written to its destination. -/
def loadBody (e : EngId) (dst : LoadDst) (upd : Regs → Option (Nat × Addr)) (rd : Regs) (aps : List (List Phys)) (s : State) :
    Except Exc State :=
  match loadWords s e aps.flatten with
  | (.error x, _) => .error x
  | (.ok ws, t) => finishLoad t e rd dst (upd rd) ws

/-- The shape of a load of z words (R134, R162). -/
def loadOp (words : List Word) (writes : List Res) (lacks : Bool) (z : Nat) (ea : Regs → Engine → Ea) (dst : LoadDst)
    (e : EngId) (s : State) : Result :=
  .next (issue { words := words, base := 0, writes := writes, lacks := lacks }
    (fun rd x => { emul := (ea rd x).bad, acc := [{ va := (ea rd x).va, z := z, kind := .load }], dst := some dst,
                   upd := (ea rd x).upd })
    (fun _ _ => .seq) (loadBody e dst fun rd => (ea rd (s.engAt e)).upd) e s)

/-- The shape of a store of words (R134, R135, R162): the value is the register's before the instruction. -/
def storeOp (words : List Word) (writes : List Res) (lacks : Bool) (z : Nat) (ea : Regs → Engine → Ea) (val : Regs → List Word)
    (e : EngId) (s : State) : Result :=
  .next (issue { words := words, base := 0, writes := writes, lacks := lacks }
    (fun rd x => { emul := (ea rd x).bad, acc := [{ va := (ea rd x).va, z := z, kind := .store }] })
    (fun _ _ => .seq)
    (fun rd aps t =>
      let u := (ea rd (s.engAt e)).upd
      (storeAccess t e aps.flatten (val rd)).map fun t => t.modEng e fun x => { x with regs := x.regs.setUpd u }) e s)

/-- The address register a word or long operand updates, as a written resource. -/
def memWrites (m : MemOp) : List Res :=
  match m with
  | .sm _ false => []
  | .sm a true => [.a a.val]
  | .lm a am => match am with
    | .post => [.a a.val]
    | .pre => [.a a.val]
    | .mpost _ => [.a a.val]
    | .ring _ _ => [.a a.val]
    | _ => []

/-- The effective address of format SM. -/
def smEa (a : Fin 16) (inc : Bool) (z : Nat) (r : Regs) : Ea := amodeEa r a.val z (if inc then .post else .ind)

/-- The address register format SM updates, as a written resource. -/
def smWrites (a : Fin 16) (inc : Bool) : List Res := if inc then [.a a.val] else []

/-- A long as words. -/
def longWords (x : Long) : List Word := toWords x.toNat 2
/-- A lane register as words (R55). -/
def laneWords (r : Regs) (n : Nat) : List Word := (List.range 16).map fun i => r.rv n i
/-- A lane accumulator as words (R55). -/
def accWords (r : Regs) (n : Nat) : List Word := ((List.range 16).map fun i => toWords (r.ru n i).toNat 3).flatten

/-- LD (R162). -/
def execLd (e : EngId) (t : Fin 32) (m : MemOp) (s : State) : Result :=
  loadOp (encMem 0x10 0x2C t.val m) (.w t.val :: memWrites m) false 1 (fun r _ => memEa m r 1) (.w t.val) e s
/-- ST (R162). -/
def execSt (e : EngId) (t : Fin 32) (m : MemOp) (s : State) : Result :=
  storeOp (encMem 0x11 0x2D t.val m) (memWrites m) false 1 (fun r _ => memEa m r 1) (fun r => [r.rw t.val]) e s
/-- LDL (R162). -/
def execLdl (e : EngId) (t : Fin 16) (m : MemOp) (s : State) : Result :=
  loadOp (encMem 0x12 0x2E (2 * t.val) m) ([.w (2 * t.val), .w (2 * t.val + 1)] ++ memWrites m) false 2 (fun r _ => memEa m r 2)
    (.l t.val) e s
/-- STL (R162). -/
def execStl (e : EngId) (t : Fin 16) (m : MemOp) (s : State) : Result :=
  storeOp (encMem 0x13 0x2F (2 * t.val) m) (memWrites m) false 2 (fun r _ => memEa m r 2) (fun r => longWords (r.rl t.val)) e s
/-- LDA (R162). -/
def execLda (e : EngId) (t a : Fin 16) (inc : Bool) (s : State) : Result :=
  loadOp (encSM 0x14 t.val a.val inc) (.a t.val :: smWrites a inc) false 3 (fun r _ => smEa a inc 3 r) (.a t.val) e s
/-- STA (R162). -/
def execSta (e : EngId) (t a : Fin 16) (inc : Bool) (s : State) : Result :=
  storeOp (encSM 0x15 t.val a.val inc) (smWrites a inc) false 3 (fun r _ => smEa a inc 3 r)
    (fun r => toWords (r.ra t.val).toNat 3) e s
/-- VLD (R162). -/
def execVld (e : EngId) (t a : Fin 16) (inc : Bool) (s : State) : Result :=
  loadOp (encSM 0x16 t.val a.val inc) (.v t.val :: smWrites a inc) true 16 (fun r _ => smEa a inc 16 r) (.v t.val) e s
/-- VST (R162). -/
def execVst (e : EngId) (t a : Fin 16) (inc : Bool) (s : State) : Result :=
  storeOp (encSM 0x17 t.val a.val inc) (smWrites a inc) true 16 (fun r _ => smEa a inc 16 r) (fun r => laneWords r t.val) e s
/-- ULD (R162): T bit 4 is 0 for a load. -/
def execUld (e : EngId) (t : Fin 4) (a : Fin 16) (inc : Bool) (s : State) : Result :=
  loadOp (encSM 0x18 t.val a.val inc) (.u t.val :: smWrites a inc) true 48 (fun r _ => smEa a inc 48 r) (.u t.val) e s
/-- UST (R162). -/
def execUst (e : EngId) (t : Fin 4) (a : Fin 16) (inc : Bool) (s : State) : Result :=
  storeOp (encSM 0x18 (16 + t.val) a.val inc) (smWrites a inc) true 48 (fun r _ => smEa a inc 48 r) (fun r => accWords r t.val) e s
/-- KLD (R162). -/
def execKld (e : EngId) (t : Fin 4) (a : Fin 16) (inc : Bool) (s : State) : Result :=
  loadOp (encSM 0x1A t.val a.val inc) (.k t.val :: smWrites a inc) false 5 (fun r _ => smEa a inc 5 r) (.k t.val) e s
/-- KST (R162). -/
def execKst (e : EngId) (t : Fin 4) (a : Fin 16) (inc : Bool) (s : State) : Result :=
  storeOp (encSM 0x1A (16 + t.val) a.val inc) (smWrites a inc) false 5 (fun r _ => smEa a inc 5 r)
    (fun r => toWords (r.rk t.val).toNat 5) e s
/-- QSET (R66, R67). -/
def execQset (e : EngId) (t : Fin 4) (a : Fin 16) (inc : Bool) (s : State) : Result :=
  loadOp (encSM 0x1C t.val a.val inc) (.q t.val :: .sw :: smWrites a inc) false 9 (fun r _ => smEa a inc 9 r) (.q t.val) e s
/-- QST (R66). -/
def execQst (e : EngId) (t : Fin 4) (a : Fin 16) (inc : Bool) (s : State) : Result :=
  storeOp (encSM 0x1C (16 + t.val) a.val inc) (smWrites a inc) false 9 (fun r _ => smEa a inc 9 r)
    (fun r => (r.rq t.val).words) e s
/-- LDX (R162). -/
def execLdx (e : EngId) (t : Fin 32) (b : XBase) (s : State) : Result :=
  loadOp (encXM 0x39 t.val b) [.w t.val] false 1 (fun r x => { va := xbaseEa b r x.pc }) (.w t.val) e s
/-- STX (R162). -/
def execStx (e : EngId) (t : Fin 32) (b : XBase) (s : State) : Result :=
  storeOp (encXM 0x3A t.val b) [] false 1 (fun r x => { va := xbaseEa b r x.pc }) (fun r => [r.rw t.val]) e s

/-! ### Atomics (R163, R205) -/

/-- The shape of an atomic: the store buffer drains, then the word is read and written as one access. `new` is the word
written, if one is written, and `fin` the registers after. -/
def atomicOp (words : List Word) (writes : List Res) (a : Fin 16) (new : Regs → Word → Option Word)
    (fin : Regs → Word → Regs → Regs) (e : EngId) (s : State) : Result :=
  .next (issue { words := words, base := 0, writes := writes }
    (fun rd _ => { acc := [{ va := rd.ra a.val, z := 1, kind := .atomic }] }) (fun _ _ => .seq)
    (fun rd aps t =>
      match aps.flatten with
      | [] => .ok t
      | p :: _ =>
        let t := drainAll t e
        if isBad t p.pa then .error (.mc 3 (some p.va))
        else
          let old := t.readMem p.pa
          let t := match new rd old with
            | some w => t.writeMem p.pa [w]
            | none => t
          .ok (t.modEng e fun x => { x with regs := fin rd old x.regs })) e s)

/-- XADD (R163). -/
def execXadd (e : EngId) (t : Fin 32) (a : Fin 16) (s : State) : Result :=
  atomicOp (encSM 0x1B t.val a.val false) [.w t.val] a (fun r old => some (old + r.rw t.val)) (fun _ old r => r.setW t.val old) e s
/-- SWAP (R163). -/
def execSwap (e : EngId) (t : Fin 32) (a : Fin 16) (s : State) : Result :=
  atomicOp (encSM 0x1B t.val a.val true) [.w t.val] a (fun r _ => some (r.rw t.val)) (fun _ old r => r.setW t.val old) e s
/-- CAS (R163): the low word of the long is expected, the high word new; Z says whether they were equal. -/
def execCas (e : EngId) (t a : Fin 16) (s : State) : Result :=
  atomicOp (encSM 0x1D (2 * t.val) a.val false) [.w (2 * t.val), .sw] a
    (fun r old => if old = r.rw (2 * t.val) then some (r.rw (2 * t.val + 1)) else none)
    (fun rd old r => (r.setW (2 * t.val) old).setFl { rd.fl with z := decide (old = rd.rw (2 * t.val)) }) e s

/-! ### Strings (R138, R165) -/

/-- The four string instructions. -/
inductive StrKind where
  | movs | fills | cmps | scans
  deriving DecidableEq, Repr

/-- The system-group function of a string instruction. -/
def StrKind.fn : StrKind → Nat
  | .movs => 25
  | .fills => 26
  | .cmps => 27
  | .scans => 28

/-- Its shape: base is the fixed part (R179). -/
def StrKind.shape (k : StrKind) : Shape := { words := encS 0 k.fn 0, serial := true, base := 2 }

/-- The accesses of one element. -/
def StrKind.acc (k : StrKind) (r : Regs) : List Access :=
  let src : Access := { va := r.ra 12, z := 1, kind := .load }
  let dst : Access := { va := r.ra 13, z := 1, kind := .store }
  match k with
  | .movs => [src, dst]
  | .fills => [dst]
  | .cmps => [src, { dst with kind := .load }]
  | .scans => [src]

/-- The charge of one completed element (R179). -/
def StrKind.charge (k : StrKind) (e : EngId) (aps : List (List Phys)) : Nat :=
  let ld (i : Nat) := memCharge e .load (aps.getD i []) - 1
  let st (i : Nat) := memCharge e .store (aps.getD i []) - 1
  match k with
  | .movs => ld 0 + st 1 + 1
  | .fills => st 0 + 1
  | .cmps => ld 0 + ld 1 + 1
  | .scans => ld 0 + 1

/-- Where a host-window element's words go. -/
def StrKind.dst : StrKind → Option LoadDst
  | .movs => some .movs
  | .fills => none
  | .cmps => some .cmps
  | .scans => some .scans

/-- An element stops the instruction early: CMPS at a difference, SCANS at a match (R138). -/
def StrKind.stops (k : StrKind) (r : Regs) (ws : List Word) : Bool :=
  match k with
  | .cmps => wordAt ws 0 != wordAt ws 1
  | .scans => wordAt ws 0 == r.rw 31
  | _ => false

/-- The registers after one completed element (R138). -/
def StrKind.advance (k : StrKind) (r : Regs) : Regs :=
  let a12 (r : Regs) := r.setA 12 (r.ra 12 + 1#48)
  let a13 (r : Regs) := r.setA 13 (r.ra 13 + 1#48)
  let r' := match k with
    | .movs => a13 (a12 r)
    | .fills => a13 r
    | .cmps => a13 (a12 r)
    | .scans => a12 r
  r'.setW 30 (r.rw 30 - 1#16)

/-- The flags when a string instruction stops (R165); `early` holds the words at which it stopped early. -/
def StrKind.flags (k : StrKind) (f : Flags) (early : Option (List Word)) : Flags :=
  match k with
  | .cmps => { f with z := early.isNone, c := match early with
      | some ws => decide ((wordAt ws 0).toNat ≥ (wordAt ws 1).toNat)
      | none => true }
  | .scans => { f with z := early.isSome }
  | _ => f

/-- How far a string instruction has come: it goes on with the next element, has ended, or was diverted. -/
inductive StrOut where
  | more (s : State)
  | ended (s : State)
  deriving DecidableEq, Repr

/-- The device a pass leaves. -/
def StrOut.state : StrOut → State
  | .more t => t
  | .ended t => t

/-- Its final retirement: flags, the fixed charge, the continuation; a PMC interrupt on line `irq` goes before it (R106). (DEDUCED, log 34) -/
def strRetire (s : State) (e : EngId) (k : StrKind) (fps : List Phys) (early : Option (List Word)) (irq : Option Nat) : State :=
  let x := s.engAt e
  let sh := k.shape
  let chg := sh.base + fetchCharge x e fps
  if overruns x chg then takeOverrun s e sh.len
  else match irq with
  | some l => takeInterrupt s e l false
  | none =>
    let y := (fetchLines s x e fps).issued false
    retire (s.setEng e { y with regs := y.regs.setFl (k.flags y.regs.fl early) }) e x sh fps chg .seq

/-- The store of one element. -/
def strStore (s : State) (e : EngId) (k : StrKind) (aps : List (List Phys)) (ws : List Word) : Except Exc State :=
  match k with
  | .movs => storeAccess s e (aps.getD 1 []) [wordAt ws 0]
  | .fills => storeAccess s e (aps.getD 0 []) [(s.engAt e).regs.rw 31]
  | _ => .ok s

/-- One element performed, its store made: the operands' advance, its charge (R105, R138). A step may end with it (R471); the last
element of all is one instruction with the retirement that follows it. A breakpoint that a RESUME passed stays passed (R472). -/
def strPerform (t : State) (e : EngId) (k : StrKind) (chg : Nat) : State :=
  let y := t.engAt e
  let m := if y.metered then { y.meter with charge := y.meter.charge + BitVec.ofNat 32 chg } else y.meter
  let z := if y.metered then y.count (perfKeys e) 0x0F chg else y
  let t := t.setEng e { z.issued false with regs := k.advance z.regs, meter := m, skipWp := false }
  if (t.engAt e).regs.rw 30 = 0#16 then t else stepDone t e

/-- One element with its words at hand: charged, performed, or the end of the instruction; a PMC interrupt on line `irq` goes before it
(R106). (DEDUCED, log 34) -/
def strElement (s : State) (e : EngId) (k : StrKind) (fps : List Phys) (aps : List (List Phys)) (ws : List Word) (irq : Option Nat) : StrOut :=
  let x := s.engAt e
  let chg := k.charge e aps
  if k.stops x.regs ws then .ended (strRetire s e k fps (some ws) irq)
  else
    match strStore s e k aps ws with
    | .error exc => .ended (takeExc s e 1 exc)
    | .ok t =>
      if overruns x chg then .ended (takeOverrun s e 1)
      else match irq with
      | some l => .ended (takeInterrupt s e l false)
      | none =>
        let u := strPerform t e k chg
        if (u.engAt e).run = .halted then .ended u else .more u

/-- One pass of a string instruction at the point. -/
def strStep (s : State) (e : EngId) (k : StrKind) : StrOut :=
  let x := s.engAt e
  let sh := k.shape
  if !canIssue s e then .ended s
  else if x.slot && x.annul then .ended (annulledSlot s e sh.len)
  else
    let fin := decide (x.regs.rw 30 = 0#16)
    let pl : Plan := { acc := if fin then [] else k.acc x.regs, dst := if fin then none else k.dst }
    match checkInstr s e sh pl with
    | .error d => .ended (divert s e sh.len d)
    | .ok (fps, aps) =>
      let irq := pmcNow s e false
      if fin then .ended (strRetire s e k fps none irq)
      else
        let loads := match k with
          | .movs => aps.take 1
          | .fills => []
          | _ => aps
        match loads.flatten.find? fun p => decide (regionOf p.pa = .host) with
        | some _ =>
          if let some l := irq then .ended (takeInterrupt s e l false) else
          let s := (drainAll s e).modEng e fun y => y.issued false
          let p : PendLoad :=
            { dst := (k.dst).getD .movs, inst := x.ctrl.hinst.toNat, vas := hostVas loads, words := hostAwait s e loads, upd := none
              regs := x.regs, sh := sh, charge := 0, fetchPa := (fps.head?.map (·.pa)).getD 0, pages := hostPages loads
              addrs := hostAddrs loads, pasid := s.pasidOf x.ctrl.hinst.toNat }
          .ended (startHostLoad s e p)
        | none =>
          match loadWords s e loads.flatten with
          | (.error exc, _) => .ended (takeExc s e sh.len exc)
          | (.ok ws, t) => strElement t e k fps aps ws irq

/-- A string instruction: elements up to the number given, at most one pass more to retire (R105). -/
def strRun (k : StrKind) (e : EngId) : Nat → State → State
  | 0, s => s
  | n + 1, s =>
    match strStep s e k with
    | .ended t => settleHalt t e
    | .more t => if (t.engAt e).haltAsked then settleHalt t e else strRun k e n t

/-- MOVS (R138). -/
def execMovs (e : EngId) (upto : Nat) (s : State) : Result := .next (strRun .movs e upto s)
/-- FILLS (R138). -/
def execFills (e : EngId) (upto : Nat) (s : State) : Result := .next (strRun .fills e upto s)
/-- CMPS (R138). -/
def execCmps (e : EngId) (upto : Nat) (s : State) : Result := .next (strRun .cmps e upto s)
/-- SCANS (R138). -/
def execScans (e : EngId) (upto : Nat) (s : State) : Result := .next (strRun .scans e upto s)

/-! ### The host window's answers -/

/-- The words of a waiting load with the host's words in place of the awaited ones; one the host did not send is free. -/
def fillWords (fv : Nat) : List (Option Word) → List Word → List Word
  | [], _ => []
  | some w :: r, h => w :: fillWords fv r h
  | none :: r, [] => Config.freeWord fv :: fillWords (fv + 1) r []
  | none :: r, w :: h => w :: fillWords fv r h

/-- The string instruction a waiting load belongs to. -/
def strOf : LoadDst → Option StrKind
  | .movs => some .movs
  | .cmps => some .cmps
  | .scans => some .scans
  | _ => none

/-- A load from the host window completes with the host's words and retires, or overruns the budget (R179, R217). -/
def hostComplete (s : State) (e : EngId) (p : PendLoad) (data : List Word) : State :=
  let s := (s.modEng e fun x => { x with run := .running }).count 3166 1
  let ws := fillWords s.fv p.words data
  let s := { s with fv := s.fv + ws.length }
  let x := s.engAt e
  let fps : List Phys := [{ pa := p.fetchPa, va := x.pc, dev := false, cached := false, nextOk := false }]
  match strOf p.dst with
  | some k =>
    match translateAll s e (k.acc x.regs) with
    | .error exc => takeExc s e p.sh.len exc
    | .ok aps => (strElement s e k fps aps ws none).state
  | none =>
    match finishLoad s e p.regs p.dst p.upd ws with
    | .error exc => takeExc s e p.sh.len exc
    | .ok t => if !p.sh.unmetered && overruns x p.charge then takeOverrun s e p.sh.len else retire t e x p.sh fps p.charge .seq

/-- A host-window load fails at awaited word k (R189, R217, R293, R314): ACCESS reason HOST at its address, and no instance error. -/
def hostFailed (s : State) (e : EngId) (p : PendLoad) (k : Nat) : State :=
  settleHalt (hostRefused (s.modEng e fun x => { x with run := .running }) e p.sh.len
    (.kern 2 13 0 (some (p.vas.getD k (p.vas.headD 0#48))) [])) e

/-- HOST_LOAD_COMPLETE (R217, R218): the completion of an engine's host-window load arrives, poisoned it may be, or its translation is
refused; no translation that the cache holds can be. -/
def execHostLoadComplete (e : EngId) (data : LoadEnd) (s : State) : Result :=
  .next (match (s.engAt e).run with
    | .hostWait p =>
      match data with
      | .data ws => (settleHalt (hostComplete (hostTranslated s e p) e p ws) e).loadEnded e
      | .refused k => if p.asked && s.atsCached p.inst p.pages then s else (hostFailed s e p k).loadEnded e
      | .poisoned k => ((hostFailed (hostTranslated s e p) e p k).aerCause 2).loadEnded e
      | .timedOut => ((hostFailed s e p 0).aerCause 3).loadEnded e
    | _ => s.loadEnded e)

/-- HOST_LOAD_TIMEOUT (R314): a load not completed 10 µs after leaving the engine raises ACCESS reason HOST. -/
def execHostLoadTimeout (e : EngId) (s : State) : Result :=
  .next (match (s.engAt e).run with
    | .hostWait p => (hostFailed s e p 0).loadEnded e
    | _ => s.loadEnded e)

end Sys2Proof.Machine
end

