-- ==== Sys2Proof/Machine/Moves.lean ====
section
/-! DEFINITION. The moves and control moves (R152), the control registers (R127) and their write rules. -/
namespace Sys2Proof.Machine

/-- The width class of a control register number: 16, 48, or 0 for a reserved number (R127). -/
def ctrlWidth (n : Nat) : Nat :=
  if n = 0 ∨ n = 3 ∨ (5 ≤ n ∧ n ≤ 7) ∨ (9 ≤ n ∧ n ≤ 11) ∨ n = 16 ∨ n = 19 ∨ n = 21 ∨ n = 22 ∨ n = 24 ∨ n = 29 then 16
  else if n = 1 ∨ n = 2 ∨ n = 4 ∨ n = 8 ∨ (12 ≤ n ∧ n ≤ 15) ∨ n = 17 ∨ n = 18 ∨ n = 20 then 48
  else 0

/-- ISAVER: Nirnis-16 revision 1.0 (R148). -/
def isaVer : Word := 0x0100#16

/-- IPEND and IMASK bits an engine has (R146). -/
def lineMask (e : EngId) : Word := if isReckoner e then 0x000F#16 else 0x3F09#16

/-- TLBIDX as a word (R195). -/
def tlbIdxWord (c : Ctrl) : Word := BitVec.ofNat 16 (c.tlbIdx.toNat + 32768 * c.tlbMiss.toNat)

/-- HINST as a word (R216). -/
def hinstWord (c : Ctrl) : Word := BitVec.ofNat 16 (c.hinst.toNat + 32768 * c.hvalid.toNat)

/-- A 16-bit control register read (R127). -/
def readCtrl16 (e : EngId) (x : Engine) (n : Nat) : Word :=
  if n = 0 then x.psr.toWord else if n = 3 then x.ctrl.cause else if n = 5 then x.ctrl.tw0
  else if n = 6 then x.ctrl.tw1 else if n = 7 then x.ctrl.tw2 else if n = 9 then x.ctrl.asid.zeroExtend 16
  else if n = 10 then x.ctrl.ipend else if n = 11 then x.ctrl.imask else if n = 16 then x.ctrl.psrM
  else if n = 19 then x.ctrl.causeM else if n = 21 then engIdWord e else if n = 22 then isaVer
  else if n = 24 then tlbIdxWord x.ctrl else if n = 29 then hinstWord x.ctrl else 0#16

/-- A 48-bit control register read (R127). -/
def readCtrl48 (x : Engine) (n : Nat) : Addr :=
  if n = 1 then x.ctrl.spot else if n = 2 then x.ctrl.snext else if n = 4 then x.ctrl.badaddr
  else if n = 8 then x.ctrl.vbase else if n = 17 then x.ctrl.spotM else if n = 18 then x.ctrl.snextM
  else if n = 20 then x.ctrl.badaddrM else tblGet 0#48 x.ctrl.scr n

/-- PSR after a write: WALK read-only, PMODE keeps its value for 2 and 3, MODE as R125 gives. (DEDUCED, log 21) -/
def writePsr (p : Psr) (w : Word) : Psr :=
  { p with
    ie := w.getLsbD 2, hl := w.getLsbD 3, rpe := w.getLsbD 5, pie := w.getLsbD 8, prpe := w.getLsbD 9
    pkernel := match fld w 6 2 with | 0 => false | 1 => true | _ => p.pkernel
    mode := if p.mode = .machine then (match fld w 0 2 with | 0 => .user | 1 => .kernel | 2 => .machine | _ => p.mode)
            else p.mode }

/-- A 16-bit control register written: CAUSE, CAUSE_M and the derived registers as their fields' access codes give. -/
def writeCtrl16 (e : EngId) (x : Engine) (n : Nat) (w : Word) : Engine :=
  let c := x.ctrl
  if n = 0 then { x with psr := writePsr x.psr w }
  else if n = 5 then { x with ctrl := { c with tw0 := w } }
  else if n = 6 then { x with ctrl := { c with tw1 := w } }
  else if n = 7 then { x with ctrl := { c with tw2 := w } }
  else if n = 9 then { x with ctrl := { c with asid := w.extractLsb' 0 12 } }
  else if n = 10 then { x with ctrl := { c with ipend := c.ipend &&& ~~~w } }
  else if n = 11 then { x with ctrl := { c with imask := w &&& lineMask e } }
  else if n = 16 then { x with ctrl := { c with psrM := w &&& 0x03FF#16 } }
  else if n = 24 then { x with ctrl := { c with tlbIdx := w.extractLsb' 0 6 } }
  else if n = 29 then { x with ctrl := { c with hvalid := w.getLsbD 15, hinst := w.extractLsb' 0 9 } }
  else x

/-- A 48-bit control register written; VBASE bits 7:0 read 0 (R127). -/
def writeCtrl48 (x : Engine) (n : Nat) (w : Addr) : Engine :=
  let c := x.ctrl
  if n = 1 then { x with ctrl := { c with spot := w } }
  else if n = 2 then { x with ctrl := { c with snext := w } }
  else if n = 4 then { x with ctrl := { c with badaddr := w } }
  else if n = 8 then { x with ctrl := { c with vbase := w &&& 0xFFFFFFFFFF00#48 } }
  else if n = 17 then { x with ctrl := { c with spotM := w } }
  else if n = 18 then { x with ctrl := { c with snextM := w } }
  else if n = 20 then { x with ctrl := { c with badaddrM := w } }
  else { x with ctrl := { c with scr := tblSet 0#48 c.scr n w } }

/-- The least mode that may move a control register (R126). -/
def ctrlPriv (n : Nat) (write : Bool) : Mode :=
  if (n = 21 ∨ n = 22) ∧ write = false then .user
  else if (16 ≤ n ∧ n ≤ 20) ∨ (n = 8 ∧ write = true) then .machine
  else .kernel

/-- A number that MFC and MTC cannot name with this register: reserved, or of the wrong width class (R127, R131). -/
def ctrlBad (n d : Nat) : Bool := decide (ctrlWidth n = 0) || (decide (ctrlWidth n = 48) && decide (16 ≤ d))

/-- MFC (R127, R152). -/
def execMfc (e : EngId) (d n : Fin 32) (s : State) : Result :=
  let wide := decide (ctrlWidth n.val = 48)
  .next (issue { words := encS 0x01 d.val n.val, priv := ctrlPriv n.val false,
                 writes := [if wide then .a d.val else .w d.val] }
    (fun _ _ => { emul := ctrlBad n.val d.val }) (fun _ _ => .seq)
    (fun _ _ s => .ok (s.modEng e fun x =>
      let r := if wide then x.regs.setA d.val (readCtrl48 x n.val) else x.regs.setW d.val (readCtrl16 e x n.val)
      { x with regs := r })) e s)

/-- MTC (R127, R152): serialising; ENGID and ISAVER raise ILLEGAL. A write of PSR is mode-changing in a slot (R90). (DESIGN CHOICE, log 17) -/
def execMtc (e : EngId) (n d : Fin 32) (s : State) : Result :=
  .next (issue { words := encS 0x02 d.val n.val, priv := ctrlPriv n.val true, serial := true, base := 4,
                 slotIll := decide (n.val = 0) }
    (fun _ _ => { emul := ctrlBad n.val d.val, illegal := decide (n.val = 21 ∨ n.val = 22) }) (fun _ _ => .seq)
    (fun rd _ s => .ok (s.modEng e fun x =>
      if ctrlWidth n.val = 48 then writeCtrl48 x n.val (rd.ra d.val) else writeCtrl16 e x n.val (rd.rw d.val))) e s)

/-- MOV (R152). -/
def execMov (e : EngId) (d sr : Fin 32) (s : State) : Result :=
  wordMove (encS 0x03 d.val sr.val) 1 d.val (fun r => r.rw sr.val) e s

/-- MOVQ (R152). -/
def execMovq (e : EngId) (d : Fin 32) (i : BitVec 5) (s : State) : Result :=
  wordMove (encSI 0x0B d.val i) 1 d.val (fun _ => i.signExtend 16) e s

/-- MOVI (R152). -/
def execMovi (e : EngId) (d : Fin 32) (i : Word) (s : State) : Result :=
  wordMove (encLI 0x2B d.val 0 i) 1 d.val (fun _ => i) e s

/-- LMOV (R152). -/
def execLmov (e : EngId) (d sr : Fin 16) (s : State) : Result :=
  longMove (encL0 0x29 0x09 (2 * d.val) (2 * sr.val) 0) 1 d.val (fun r => r.rl sr.val) e s

/-- LMOVI (R152). -/
def execLmovi (e : EngId) (d : Fin 16) (i : Long) (s : State) : Result :=
  longMove (encX 0x38 (2 * d.val) 0 i) 1 d.val (fun _ => i) e s

/-- AMOVI (R152). -/
def execAmovi (e : EngId) (d : Fin 16) (i : Long) (s : State) : Result :=
  addrMove (encX 0x38 d.val 5 i) d.val (fun _ => i.signExtend 48) e s

/-- AMOVHI (R152): bits 47:32 from the immediate, bits 31:0 kept. -/
def execAmovhi (e : EngId) (d : Fin 16) (i : Word) (s : State) : Result :=
  addrMove (encX 0x38 d.val 7 (i.zeroExtend 32)) d.val (fun r => i ++ (r.ra d.val).extractLsb' 0 32) e s

/-- AMOV (R152). -/
def execAmov (e : EngId) (d sr : Fin 16) (s : State) : Result :=
  addrMove (encL0 0x29 0x32 d.val sr.val 0) d.val (fun r => r.ra sr.val) e s

/-- AMOVL (R152): a long, zero-extended. -/
def execAmovl (e : EngId) (d sr : Fin 16) (s : State) : Result :=
  addrMove (encL0 0x29 0x35 d.val (2 * sr.val) 0) d.val (fun r => (r.rl sr.val).zeroExtend 48) e s

/-- LMOVA (R152): bits 31:0 of an address register. -/
def execLmova (e : EngId) (d sr : Fin 16) (s : State) : Result :=
  longMove (encL0 0x29 0x36 (2 * d.val) sr.val 0) 1 d.val (fun r => (r.ra sr.val).extractLsb' 0 32) e s

/-- MFSW (R152). -/
def execMfsw (e : EngId) (d : Fin 32) (s : State) : Result :=
  issueRegs { words := encS 0 6 d.val, serial := true, writes := [.w d.val] } (fun _ _ => {})
    (fun rd r => r.setW d.val rd.fl.toWord) e s

/-- MTSW (R152): serialising; the explicit write of SW that clears the sticky flags (R27). -/
def execMtsw (e : EngId) (sr : Fin 32) (s : State) : Result :=
  issueRegs { words := encS 0 7 sr.val, serial := true, writes := [.sw], base := 4 } (fun _ _ => {})
    (fun rd r => r.setFl (Flags.ofWord (rd.rw sr.val))) e s

/-- MFMW (R152). -/
def execMfmw (e : EngId) (d : Fin 32) (s : State) : Result :=
  issueRegs { words := encS 0 8 d.val, serial := true, writes := [.w d.val] } (fun _ _ => {})
    (fun rd r => r.setW d.val rd.mw.toWord) e s

/-- MTMW (R152): serialising; a RND of 6 or 7 raises EMULATE and leaves MW unchanged (R32). -/
def execMtmw (e : EngId) (sr : Fin 32) (s : State) : Result :=
  issueRegs { words := encS 0 9 sr.val, serial := true, writes := [.mw], base := 4 }
    (fun rd _ => { emul := decide (6 ≤ fld (rd.rw sr.val) 0 3) })
    (fun rd r => { r with mw := ModeWord.ofWord (rd.rw sr.val) }) e s

end Sys2Proof.Machine
end

