-- ==== Sys2Proof/Machine/System.lean ====
section
/-! DEFINITION. The system group (R166 to R170): waiting, fences, cache and TLB maintenance, traps and returns, jobs and
messages; the Counting Board instructions (R71, R74, R171); taking an interrupt (R146); a store-buffer drain (R96). -/
namespace Sys2Proof.Machine

/-- The shape of a system-group instruction that takes no operand trap. -/
def sysOp (fn sreg : Nat) (priv : Mode) (base : Nat) (slotIll : Bool) (f : Regs → Engine → Engine) (e : EngId) (s : State) : Result :=
  .next (issue { words := encS 0 fn sreg, priv := priv, serial := true, slotIll := slotIll, base := base }
    (fun _ _ => {}) (fun _ _ => .seq) (fun rd _ s => .ok (s.modEng e (f rd))) e s)

/-- NOP (R166). -/
def execNop (e : EngId) (s : State) : Result := sysOp 0 0 .user 1 false (fun _ x => x) e s

/-- WAIT (R169): retires at once when an enabled line is pending; else nothing issues until one is, the line its own
retirement may request among them. (DEDUCED, log 26) -/
def execWait (e : EngId) (s : State) : Result :=
  .next ((issue { words := encS 0 1 0, priv := .kernel, serial := true } (fun _ _ => {}) (fun _ _ => .seq)
    (fun _ _ s => .ok (s.modEng e fun x =>
      if x.ctrl.ipend &&& x.ctrl.imask ≠ 0#16 then x else { x with run := .waiting })) e s).modEng e Engine.wake)

/-- ISYNC (R95, R100, R128): the store buffer drains; fetched instructions are discarded, fetch takes up the TLB and the ASID. -/
def execIsync (e : EngId) (s : State) : Result :=
  .next (issue { words := encS 0 2 0, serial := true, base := 8 } (fun _ _ => {}) (fun _ _ => .seq)
    (fun _ _ s => .ok ((drainAll s e).modEng e Engine.sync)) e s)

/-- FENCE (R204): every older store and write-back is performed. -/
def execFence (e : EngId) (s : State) : Result :=
  .next (issue { words := encS 0 3 0, serial := true, base := 4 } (fun _ _ => {}) (fun _ _ => .seq)
    (fun _ _ s => .ok (drainAll s e)) e s)

/-- BRK (R139): raises BREAK. -/
def execBrk (e : EngId) (s : State) : Result :=
  .next (issue { words := encS 0 4 0, serial := true, slotIll := true } (fun _ _ => {}) (fun _ _ => .seq)
    (fun _ _ _ => .error (.kern 0x0A 0 0 none [])) e s)

/-- TRAP (R139): raises SYSCALL with its code. -/
def execTrap (e : EngId) (n : Fin 16) (s : State) : Result :=
  .next (issue { words := encS 0 5 n.val, serial := true, slotIll := true } (fun _ _ => {}) (fun _ _ => .seq)
    (fun _ _ _ => .error (.kern 0x09 n.val 0 none [])) e s)

/-! ### Caches (R202) -/

/-- The shape of a cache maintenance instruction: its address is translated as a one-word load, exempt from the R check. A write-back may find
an error of the cache's own array (R510). -/
def cacheOp (fn : Nat) (a : Fin 16) (priv : Mode) (kind : Kind) (f : State → Phys → State) (e : EngId) (s : State) : Result :=
  .next (issue { words := encS 0 fn a.val, priv := priv, serial := true, base := 4 }
    (fun rd _ => { acc := [{ va := rd.ra a.val, z := 1, kind := kind }] }) (fun _ _ => .seq)
    (fun _ aps s =>
      match aps.flatten with
      | p :: _ =>
        match (if kind = .wback then wbackMc s e p else none) with
        | some exc => .error exc
        | none => .ok (f s p)
      | [] => .ok s) e s)

/-- IFLUSH (R202): the instruction-cache line holding the word is invalidated. -/
def execIflush (e : EngId) (a : Fin 16) (s : State) : Result :=
  cacheOp 10 a .user .maint (fun s p => s.modEng e fun x => { x with icache := x.icache.filter fun d => d.line != lineOf p.pa }) e s

/-- A dirty line written back through the store buffer, in program order (R202, R510). -/
def cleanLine (s : State) (e : EngId) (line : Nat) : State :=
  match (s.engAt e).dcache.find? fun d => d.line == line with
  | some d =>
    if d.dirty then
      let s := pushEntry s e { pa := line * 16, words := d.data, writeBack := true, bad := d.bad }
      s.modEng e fun x => { x with dcache := x.dcache.map fun c => if c.line == line then { c with dirty := false } else c }
    else s
  | none => s

/-- A line discarded. -/
def dropLine (s : State) (e : EngId) (line : Nat) : State :=
  s.modEng e fun x => { x with dcache := x.dcache.filter fun d => d.line != line }

/-- Cacheable stores still in the buffer reach the cache before a line is maintained: the store is older (R203). -/
def settleLine (s : State) (e : EngId) (line : Nat) : State :=
  if (s.engAt e).sb.any fun b => b.cached && (b.words.length != 0) && decide (b.pa / 16 ≤ line) && decide (line ≤ (b.pa + b.words.length - 1) / 16)
  then drainAll s e else s

/-- DFLUSH (R202). -/
def execDflush (e : EngId) (a : Fin 16) (s : State) : Result :=
  cacheOp 11 a .kernel .wback (fun s p => dropLine (cleanLine (settleLine s e (lineOf p.pa)) e (lineOf p.pa)) e (lineOf p.pa)) e s
/-- DINV (R202): a dirty line is discarded without being written. -/
def execDinv (e : EngId) (a : Fin 16) (s : State) : Result :=
  cacheOp 12 a .kernel .maint (fun s p => dropLine (settleLine s e (lineOf p.pa)) e (lineOf p.pa)) e s
/-- DCLEAN (R202). -/
def execDclean (e : EngId) (a : Fin 16) (s : State) : Result :=
  cacheOp 13 a .kernel .wback (fun s p => cleanLine (settleLine s e (lineOf p.pa)) e (lineOf p.pa)) e s

/-- PSCRUB (R92): every BTB entry invalid, every counter 1, the history 0. -/
def execPscrub (e : EngId) (s : State) : Result :=
  sysOp 14 0 .kernel 64 false (fun _ x => { x with btb := [], pctr := [], ghist := 0#12 }) e s

/-! ### Returns (R142) -/

/-- PSR after RETH and RETHS. (DESIGN CHOICE, log 20) -/
def psrReturn (p : Psr) : Psr :=
  { mode := if p.pkernel then .kernel else .user, ie := p.pie, hl := false, walk := false, rpe := p.prpe
    pkernel := false, pie := false, prpe := false }

/-- What the handler an engine is in has interrupted. (DEDUCED, log 35; DEDUCED, log 174) -/
def Engine.heldNow (x : Engine) : Interrupted := x.heldK.headD {}

/-- An engine back from a kernel handler, with the effect of ISYNC: PSR, the handler left, the pair it interrupted. (DEDUCED, log 174) -/
def leaveHandler (x : Engine) : Engine :=
  { x.sync with psr := psrReturn x.psr, hstk := x.hstk.drop 1, pair := x.heldNow.pair, heldK := x.heldK.drop 1 }

/-- RETH (R142): the instruction at SPOT executes again, in its delay slot if it stood in one (R90, R104), then SNEXT. (DEDUCED, log 16) -/
def execReth (e : EngId) (s : State) : Result :=
  .next (issue { words := encS 0 15 0, priv := .kernel, serial := true, slotIll := true, base := 8 } (fun _ _ => {})
    (fun _ x => .goto x.ctrl.spot (some x.ctrl.snext) (x.heldNow.slotAt x.ctrl.spot))
    (fun _ _ s => .ok ((drainAll s e).modEng e leaveHandler)) e s)

/-- RETHS (R142): as though the instruction at SPOT had retired with no effect; at BRE the test of R101 decides, whose address
after BRE is that of the next instruction in memory. It is charged with the base of a TRAP or BRK at SPOT, and is itself the instruction
that the next fetch charge looks back to (R180). (DEDUCED, log 35) -/
def execReths (e : EngId) (s : State) : Result :=
  .next (issue { words := encS 0 16 0, priv := .kernel, serial := true, slotIll := true, base := 8 + (s.engAt e).heldNow.base }
    (fun _ _ => {}) (fun _ _ => .done)
    (fun _ _ s =>
      let t := (drainAll s e).modEng e leaveHandler
      .ok (t.modEng e fun y =>
        let r := breTest y y.ctrl.spot y.ctrl.snext (y.ctrl.spot + BitVec.ofNat 48 (peekLen t e y.ctrl.spot))
        { r.2 with pc := r.1, npc := none, pair := none })) e s)

/-- RETM (R142): PSR := PSR_M; the instruction at SPOT_M executes again, then SNEXT_M. -/
def execRetm (e : EngId) (s : State) : Result :=
  .next (issue { words := encS 0 17 0, priv := .machine, serial := true, slotIll := true, base := 8 } (fun _ _ => {})
    (fun _ x => .goto x.ctrl.spotM (some x.ctrl.snextM) (x.heldM.slotAt x.ctrl.spotM))
    (fun _ _ s => .ok ((drainAll s e).modEng e fun x =>
      { x.sync with psr := Psr.ofWord x.ctrl.psrM x.psr.mode, pair := x.heldM.pair, heldM := {} })) e s)

/-! ### TLB maintenance (R195) -/

/-- TLBPUT: an 8-word load whose descriptor becomes entry TLBIDX.INDEX. -/
def execTlbput (e : EngId) (a : Fin 16) (s : State) : Result :=
  .next (issue { words := encS 0 18 a.val, priv := .kernel, serial := true, base := 8 }
    (fun rd _ => { acc := [{ va := rd.ra a.val, z := 8, kind := .load }], dst := some (.tlb a.val) }) (fun _ _ => .seq)
    (loadBody e (.tlb a.val) fun _ => none) e s)
/-- TLBGET: entry TLBIDX.INDEX stored as a descriptor. -/
def execTlbget (e : EngId) (a : Fin 16) (s : State) : Result :=
  .next (issue { words := encS 0 19 a.val, priv := .kernel, serial := true, base := 8 }
    (fun rd _ => { acc := [{ va := rd.ra a.val, z := 8, kind := .store }] }) (fun _ _ => .seq)
    (fun _ aps s =>
      let x := s.engAt e
      storeAccess s e aps.flatten (tblGet {} x.tlb x.ctrl.tlbIdx.toNat).words) e s)
/-- TLBFIND: a match writes INDEX with MISS = 0; else MISS = 1 and INDEX is kept. -/
def execTlbfind (e : EngId) (a : Fin 16) (s : State) : Result :=
  sysOp 20 a.val .kernel 8 false (fun rd x =>
    match tlbLookup x.tlb x.ctrl.asid (rd.ra a.val) with
    | some (i, _) => { x with ctrl := { x.ctrl with tlbIdx := BitVec.ofNat 6 i, tlbMiss := false } }
    | none => { x with ctrl := { x.ctrl with tlbMiss := true } }) e s
/-- TLBDROPALL: VALID = 0 in every entry. -/
def execTlbdropall (e : EngId) (s : State) : Result :=
  sysOp 21 0 .kernel 8 false (fun _ x =>
    { x with tlb := x.tlb.foldl (fun t y => tblSet {} t y.1 { y.2 with valid := false }) x.tlb }) e s
/-- TLBDROPASID: VALID = 0 in every non-global entry of an ASID. -/
def execTlbdropasid (e : EngId) (r : Fin 32) (s : State) : Result :=
  sysOp 22 r.val .kernel 8 false (fun rd x =>
    { x with tlb := x.tlb.foldl (fun t y =>
        if !y.2.g && y.2.asid == (rd.rw r.val).extractLsb' 0 12 then tblSet {} t y.1 { y.2 with valid := false } else t) x.tlb }) e s

/-! ### Jobs (R108, R168, R71, R75) -/

/-- JOBSTART (R168): waits for the previous job's padding, reads the 48-word waybill, loads budget and tracker. ILLEGAL
while a job is metered. (DESIGN CHOICE, log 27) -/
def execJobstart (e : EngId) (a : Fin 16) (s : State) : Result :=
  .next (issue { words := encS 0 23 a.val, priv := .kernel, serial := true, base := 0, unmetered := true }
    (fun rd x => { illegal := x.meter.running, acc := [{ va := rd.ra a.val, z := 48, kind := .load }], dst := some .job })
    (fun _ _ => .seq) (loadBody e .job fun _ => none) e s)

/-- The end of a job: the meter stops, the charge is reported, the padding starts (R75, R168); with no job running nothing
happens. -/
def endJob (s : State) (e : EngId) : State :=
  if !(s.engAt e).trk.active then s
  else
    let s := drainAll s e
    let pads := paddingPosts s e.val (s.engAt e).trk
    let s := onJobEnd s e
    { s with posts := s.posts ++ pads }.modEng e fun x =>
      { x with meter := { x.meter with running := false }, trk := { x.trk with active := false } }

/-- JOBEND (R168, R360): with no job running it has no effect. A reckoner counts it as it retires. -/
def execJobend (e : EngId) (s : State) : Result :=
  .next (issue { words := encS 0 24 0, priv := .kernel, serial := true, base := 0, unmetered := true } (fun _ _ => {})
    (fun _ _ => .seq)
    (fun _ _ s => .ok ((endJob s e).modEng e fun x => x.count (perfKeys e) 0x11 (if isReckoner e then 1 else 0))) e s)

/-- MSEND (R115, R170): 1 to 16 words from as to the queue wd names; its status to wd. (DESIGN CHOICE, log 194) -/
def execMsend (e : EngId) (d : Fin 32) (a : Fin 16) (s : State) : Result :=
  .next (issue { words := encS 0x19 d.val a.val, priv := .kernel, base := 8, writes := [.w d.val] }
    (fun rd _ => { acc := [{ va := rd.ra a.val, z := fld (rd.rw d.val) 8 4 + 1, kind := .load }], dst := some (.msend d.val) })
    (fun _ _ => .seq) (loadBody e (.msend d.val) fun _ => none) e s)

/-- CBPOST (R71, R171): the next block of an entry; an empty entry, or a block beyond the board's length, raises BOARD_FAULT. (DESIGN CHOICE, log 162) -/
def execCbpost (e : EngId) (v c : Fin 16) (s : State) : Result :=
  .next (issue { words := [BitVec.ofNat 16 (0x1E * 1024 + v.val * 64 + c.val)], base := 2, lacks := true } (fun _ _ => {})
    (fun _ _ => .seq)
    (fun rd _ s =>
      let x := s.engAt e
      let b := boardEntry x.trk c.val
      let n := x.trk.count c.val
      if b.1 = false ∨ (s.board b.2.2).len1 < n then .error (.kern 7 c.val 0 none [])
      else
        .ok ({ s with posts := s.posts ++ [trackerPost x.trk e.val b.2.2 n false (laneWords rd v.val)] }.modEng e fun x =>
          { x with trk := { x.trk with posted := tblSet 0 x.trk.posted c.val (n + 1) } }.count (perfKeys e) 0x0E 1)) e s)

/-- CBLD (R74, R171): block j of the generation before the job's; zeros before FIRST_GEN; BOARD_OPEN when not closed. -/
def execCbld (e : EngId) (u : Fin 4) (c j : Fin 16) (s : State) : Result :=
  .next (issue { words := [BitVec.ofNat 16 (0x1F * 1024 + u.val * 256 + c.val * 16 + j.val)], base := 200, lacks := true
                 writes := [.u u.val] } (fun _ _ => {}) (fun _ _ => .seq)
    (fun rd _ s =>
      let x := s.engAt e
      let b := boardEntry x.trk c.val
      let d := s.board b.2.2
      let blk := (rd.rw j.val).toNat
      let g := x.trk.gen - 1#32
      let k := s.block b.2.2 blk g
      if b.1 = false ∨ d.len1 < blk then .error (.kern 7 c.val 0 none [])
      else if !genGe g d.firstGen then .ok (s.modEng e fun x => { x with regs := x.regs.setU u.val fun _ => some 0#48 })
      else if d.valid && k.closed d g then
        .ok (s.modEng e fun x => { x with regs := x.regs.setU u.val fun i => some (tblGet 0#48 k.tot i) })
      else .error (.kern 8 c.val 0 none [rd.rw j.val])) e s)

/-! ### Interrupts (R103, R146) and drains (R96) -/

/-- The words fetched at the point: the instruction's, or the first alone where that cannot be read. -/
def pointLen (s : State) (e : EngId) : Nat :=
  match translateWord s e (s.engAt e).pc .fetch with
  | .ok p => wordLen (fetchWord s e p)
  | _ => 1

/-- What stands at the point before an interrupt (R106): a machine check of its fetch, a breakpoint, an exception of its fetch. (DEDUCED, log 173) -/
def pointDivert (s : State) (e : EngId) : Option Divert :=
  let bp := bpCause (s.engAt e)
  match checkFetch s e (pointLen s e) bp with
  | .error d => some d
  | .ok _ => bp.map .halt

/-- INTERRUPT (R103, R106, R146): the highest pending enabled line is taken at the point, unless an event that goes before it
stands there and is taken; a divide still in the divider may be abandoned for it. Where none can be taken nothing happens and the
lines stay pending. (DEDUCED, log 173) -/
def execInterrupt (e : EngId) (abandon : Bool) (s : State) : Result :=
  .next (
    if !canIssue s e || !canInterrupt s e then s
    else
      match takenLine (s.engAt e) with
      | none => s
      | some l =>
        match pointDivert s e with
        | some d => settleHalt (divert s e (pointLen s e) d) e
        | none => takeInterrupt s e l abandon)

/-- STORE_DRAIN (R96): the oldest store-buffer entry of an engine drains. -/
def execStoreDrain (e : EngId) (s : State) : Result :=
  .next (if (s.engAt e).sb = [] then s else (drainOne s e).modEng e Engine.wake)

/-- QUEUE_DELIVERY (R113, R114, R509): a delivery of a source reaches an engine's input queue, or is refused or dropped. Its stamp is the
packet's arrival stamp where the Gatehouse delivers it, else the time it enters the queue. -/
def execQueueDelivery (e : EngId) (source : Fin 4) (sender : Word) (data : Delivery) (s : State) : Result :=
  .next (if engPowered s e then
    let (t, s) := if source = 2 then (uwrap96 data.arrival, s) else s.readTime
    (deliver s e source.val sender t data.words).1 else s)

/-- POST_ARRIVE (R72, R77): one of the posts under way reaches its board. (DEDUCED, log 33) -/
def execPostArrive (n : Nat) (s : State) : Result :=
  .next (match s.posts[n]? with
    | some p => { s with posts := s.posts.eraseIdx n }.applyPost p
    | none => s)

end Sys2Proof.Machine
end

