-- ==== Sys2Proof/Machine/Twin.lean ====
section
/-! DEFINITION. The twin pair's state beside its commands (R366 to R386): roles, digests compared and their differences resolved. -/
namespace Sys2Proof.Machine

/-! ### Roles (R366, R367) -/

/-- The device takes a role, with SYNC. -/
def State.setRole (s : State) (role : Nat) (sync : Bool) : State :=
  s.setReg 0x0F0000 (putFld (s.reg 0x0F0000) 13 3 (2 * role + if sync then 1 else 0))

/-- The device may hold the PRIMARY role: it is eligible, and its key fuses are programmed (R369, R426). (DEDUCED, log 126) -/
def State.mayLead (s : State) : Bool := s.eligible && Config.keyFused

/-- The device becomes PRIMARY; its next CUT is the next boundary's. -/
def State.becomePrimary (s : State) : State :=
  { s.setRole 1 false with tw := { s.tw with paired := true, lastCut := s.ik.grid, resync := .idle } }

/-- A secondary loses its state: SYNC := 0 (R366). -/
def State.syncLost (s : State) : State :=
  if s.role = 2 then
    { s.clrBit 0x0F0000 13 with tw := { s.tw with digests := [], twinDigests := [], ledgerWait := [], ledgerTwin := [], handover := none } }
  else s

/-! ### Digests (R381 to R384) -/

/-- The device compares digests: a PRIMARY whose twin is a synced SECONDARY, or that SECONDARY (R382). -/
def State.compares (s : State) : Bool :=
  s.linkUp && ((decide (s.role = 1) && decide (s.tw.peer.role = 2) && s.tw.peer.sync) || (decide (s.role = 2) && s.sync))

/-- The marks W, E, D of a digest. -/
def Digest.faulty (d : Digest) : Bool := d.watchdog || d.err || d.dbg

/-- The numbers DIGEST carries: coach, period, digest, flags H W E D L. -/
def Digest.body (d : Digest) : List Nat :=
  let b := fun (x : Bool) (n : Nat) => if x then n else 0
  [d.coach, d.period % 2 ^ 32, ofWords d.words, b d.host 1 + b d.watchdog 2 + b d.err 4 + b d.dbg 8 + b d.late 16]

/-- The digest marked sent. -/
def Digest.asSent (d : Digest) (broken : Bool) : Digest := { d with sent := true, dbg := d.dbg || broken }

/-- Two digests are of one coach and period. -/
def Digest.same (a b : Digest) : Bool := decide (a.coach = b.coach) && decide (a.period % 2 ^ 32 = b.period % 2 ^ 32)

/-- The class of a difference, by the first row of *Resolution of differing digests* (R382): `p` the primary's digest, `t` the
secondary's, `can` a handover is possible. HOST 1, BOTH 2, PRIMARY_FAULT 3, SECONDARY_FAULT 4, UNEXPLAINED 5. -/
def digestClass (p t : Digest) (can : Bool) : Nat :=
  let pm := p.faulty
  let tm := t.faulty || t.late
  if p.host || t.host then 1
  else if pm && tm then 2
  else if pm && can then 3
  else if pm || tm then 4
  else 5

/-- An unexplained difference counted (R383): where the count of the last 60 s reaches the image's limit, the event, and a secondary
loses SYNC. (DEDUCED, log 137) -/
def State.unexplainedOne (s : State) : State :=
  let t := s.now
  let l := s.tw.unexpl.filter fun x => decide (t < x + 60 * 2 ^ 48)
  let limit := if s.policy 4 = 0 then 4 else s.policy 4
  let s := { s with tw := { s.tw with unexpl := t :: l } }
  if l.length + 1 = limit then (s.setBit 0x0F0002 5).syncLost else s

/-- Digests of a coach that wait, its own and its twin's, are dropped: they are not compared (R378, R384). -/
def State.dropDigests (s : State) (c : Nat) : State :=
  { s with tw := { s.tw with digests := s.tw.digests.filter fun d => d.coach != c, twinDigests := s.tw.twinDigests.filter fun d => d.coach != c } }

/-- A difference resolved in a class (R382, R384): the device whose output stands is to send the coach's state after its next
write-back, and no digest of it, one that waits with them, is compared until the other has that; PRIMARY_FAULT hands over first. -/
def State.resolve (s : State) (c cls : Nat) : State :=
  let s := if cls = 5 then s.unexplainedOne else s
  let sends := decide (s.role = 1) != decide (cls = 3)
  let s := (s.modCoach c fun k => { k with holdDigest := true, sendState := k.sendState || sends }).dropDigests c
  if cls = 3 then s.startHandover else s

/-- The device's own digest d differs from its twin's t (R382): journaled, TW_EVT.MISMATCH, TW_LAST_MISMATCH, DIGEST_MISMATCH; the
primary resolves it and mirrors the resolution. -/
def State.differ (s : State) (d t : Digest) : State :=
  let o : Origin := if s.role = 1 then .self else .twin
  let s := (((s.journalBit o 0x0F0002 4).setBit 0x0F0002 4).setReg 0x0F0005 (BitVec.ofNat 16 d.coach)).count 3183 1
  if s.role = 1 then
    let cls := digestClass d t (s.twinReady && s.tw.handover.isNone)
    (s.resolve d.coach cls).decide_ (.resolve d.coach d.period cls)
  else s

/-- A difference of a coach that no resync holds back (R384). -/
def State.differUnlessHeld (s : State) (d t : Digest) : State := if (s.coach d.coach).holdDigest then s else s.differ d t

/-- Digests that both devices' have come for and whose own has been sent are compared (R382). -/
def State.settleDigests (s : State) : State :=
  let pairs := s.tw.digests.filterMap fun d => if d.sent then (s.tw.twinDigests.find? d.same).map fun t => (d, t) else none
  let own := s.tw.digests.filter fun d => !(pairs.any fun p => d.same p.1)
  let other := s.tw.twinDigests.filter fun t => !(pairs.any fun p => t.same p.1)
  let s := { s with tw := { s.tw with digests := own, twinDigests := other } }
  pairs.foldl (fun s p => if p.1.words = p.2.words then s else s.differUnlessHeld p.1 p.2) s

end Sys2Proof.Machine
end

