-- ==== Sys2Proof/Machine/InnkeeperCmds.lean ====
section
/-! DEFINITION. The Innkeeper's own acts: rounds (R257, R274, R275, R277), period boundaries (R255, R260, R270 to R272, R280),
waybills (R263, R264), best-effort issue (R277) and the end of a drain (R272). -/
namespace Sys2Proof.Machine

/-! ### Device state and frames -/

/-- PG_STATUS.DEVSTATE outside Park: Light while some frame not out of service is without power (R409). -/
def State.devState (s : State) : State :=
  if s.parked then s
  else
    let light := (List.range 24).any fun f => !frameOn s f && decide ((s.frameAt f).st ≠ 3)
    s.setReg 0x020000 (putFld (s.reg 0x020000) 5 3 (if light then 1 else 0))

/-- Frames that are powered and empty, and those powering up. -/
def State.spares (s : State) : List Nat := (List.range 24).filter fun f =>
  (frameOn s f && decide ((s.frameAt f).st = 2) && !(s.frameAt f).back) || (s.frameAt f).poweringUp

/-- Frame power by policy at a round (R402, R407, R408): at most one frame. -/
def State.policyFrame (s : State) : State :=
  let idle := (List.range 24).filter fun f => frameOn s f && decide ((s.frameAt f).st = 2) && !(s.frameAt f).back
  let off := (List.range 24).filter fun f => !frameOn s f && decide ((s.frameAt f).st = 2) && !(s.frameAt f).poweringUp
  let stage := fld (s.reg 0x020000) 14 2
  let spare := fld (s.reg 0x020002) 11 5
  if s.parked ∨ 2 ≤ stage then s
  else if !s.bit 0x020002 10 then
    match off with
    | f :: _ => s.frameStartUp f
    | [] => s
  else if spare < idle.length then
    match idle.getLast? with
    | some f => s.frameOff f
    | none => s
  else if s.spares.length < spare then
    match off with
    | f :: _ => s.frameStartUp f
    | [] => s
  else s

/-- A frame holds no coach, no board and no best-effort job. -/
def State.frameEmpty (s : State) (f : Nat) : Bool :=
  (s.admitted.all fun x => decide (frameOf x.2.reck ≠ f) && decide (x.2.moveTo.map (fun m => frameOf m.1) ≠ some f)) &&
    (s.boards.all fun b => !b.2.valid || (decide (b.2.home ≠ f) && decide (b.2.old.map Prod.fst ≠ some f))) &&
    s.ik.bejobs.all fun j => decide (j.issued.map (fun p => frameOf p.1) ≠ some f)

/-! ### Rounds -/

/-- An instance's weight, limits and shares as committed take effect; a bucket whose limit changes starts full (R274, R277). -/
def Inst.atRound (i : Inst) : Inst :=
  let limits := (List.range 3).map fun k => ((i.nextLimits.getD k none)).getD (i.limits.getD k 0)
  let buckets := (List.range 3).map fun k =>
    let cap := bucketMax (limits.getD k 0)
    if limits.getD k 0 ≠ i.limits.getD k 0 then cap
    else min (max (i.buckets.getD k 0) cap) (i.buckets.getD k 0 + (limits.getD k 0 : Int))
  let sh := fun (k old : Nat) => ((i.nextShares.getD k none)).getD old
  { i with
    weight := i.nextWeight.getD i.weight, nextWeight := none
    limits := limits, nextLimits := [none, none, none], buckets := buckets
    shares := { steps := sh 0 i.shares.steps, dram := sh 1 i.shares.dram, streams := sh 2 i.shares.streams, boards := sh 3 i.shares.boards }
    nextShares := [none, none, none, none]
    pendShares := i.pendShares.map fun p => { p with rules := true } }

/-- A share given a value. -/
def Shares.put (x : Shares) (k v : Nat) : Shares :=
  match k with
  | 0 => { x with steps := v }
  | 1 => { x with dram := v }
  | 2 => { x with streams := v }
  | _ => { x with boards := v }

/-- Pending reductions that the admitted use now allows take effect (R275). -/
def State.pendingReductions (s : State) (n : Nat) : State :=
  (s.instAt n).pendShares.foldl (fun s p =>
    if s.useOf n p.share ≤ p.value then
      let s := s.modInst n fun i => { i with shares := i.shares.put p.share p.value, pendShares := i.pendShares.filter fun q => q.share ≠ p.share }
      (s.setBit 0x0C0001 1).notice 0 2 (n + p.tag.toNat * 65536)
    else s) s

/-- A coach that no withdrawal, move, merge or resync is about to change. -/
def Coach.still (k : Coach) : Bool :=
  k.withdrawn.isNone && k.moveTo.isNone && k.mergeInto.isNone && k.takes.isNone && !k.unprotected && k.incoming.isNone && k.resume.isNone &&
    !k.sendState && !k.holdDigest

/-- Two coaches that R260 lets merge. -/
def State.mayMerge (s : State) (a b : Nat) : Bool :=
  let x := s.coach a
  let y := s.coach b
  x.valid && y.valid && decide (a ≠ b) && decide (x.inst = y.inst) && decide (x.prog = y.prog) && decide (x.period = y.period) &&
    decide (x.rel = y.rel) && decide (x.size + y.size ≤ (s.progOf x).size) && x.still && y.still &&
    decide ((x.with_ y.members).boards.length ≤ 16) && s.fits (x.with_ y.members) (some a) x.reck

/-- Coach b is to join coach a at the boundary of period g (R260). (DESIGN CHOICE, log 77) -/
def State.mergeCoaches (s : State) (a b g : Nat) : State :=
  (s.modCoach a fun k => { k with takes := some b }).modCoach b fun k => { k with mergeInto := some (a, g) }

/-- The merge of coach b into a at its boundary g (R13, R260, R305): b's channels of that period move, with their state, their
boards and what closes them, in a from g on; b is left with those that have ended. (DESIGN CHOICE, log 77) -/
def State.mergeNow (s : State) (a b g : Nat) : State :=
  let x := s.coach a
  let y := s.coach b
  let go := y.members.filter fun m => match m.last with | some l => decide (g ≤ l) | none => true
  let x2 := { x.with_ (go.map fun m => { m with first := max m.first g }) with takes := none }
  let s := (s.setCoach a x2).setCoach b { y with members := y.members.filter fun m => !go.contains m, mergeInto := none }
  (go.zip (x2.members.drop x.members.length)).foldl (fun s p =>
    (s.copyWords (s.stateOf y p.1.slot) (s.stateOf x p.2.slot) (s.progOf x).staged).setStream p.1.stream
      { s.stream p.1.stream with coach := some a }) s

/-- The merges that take place at a boundary of the grid. -/
def State.mergesAt (s : State) (i : Nat) : State :=
  (s.ik.coaches.filter fun x => x.2.valid && decide (i % x.2.mul = 0)).foldl (fun s x =>
    match x.2.mergeInto with
    | some (a, g) =>
      if i / x.2.mul < g then s
      else if (s.coach a).valid then s.mergeNow a x.1 (i / x.2.mul)
      else s.modCoach x.1 fun k => { k with mergeInto := none }
    | none => s) s

/-- A FULL command's frames are back (R410). (DESIGN CHOICE, log 82) -/
def State.fullDone (s : State) : Bool :=
  let want := if !s.bit 0x020002 10 || decide (fld (s.reg 0x020002) 11 5 = 0) then
      ((List.range 24).filter fun f => decide ((s.frameAt f).st ≠ 3)).length
    else fld (s.reg 0x020002) 11 5
  decide (want ≤ ((List.range 24).filter fun f => frameOn s f && decide ((s.frameAt f).st = 0)).length)

/-- Full entered at a round (R409, R410): the frames that are to be powered power up or return. (DESIGN CHOICE, log 82) -/
def State.fullStart (s : State) : State :=
  if !s.pw.fullAsked then s
  else
    let s := ({ s with pw := { s.pw with fullAsked := false } }).setReg 0x020000 (putFld (s.reg 0x020000) 5 3 0)
    let want := if !s.bit 0x020002 10 || decide (fld (s.reg 0x020002) 11 5 = 0) then 24 else fld (s.reg 0x020002) 11 5
    (((List.range 24).filter fun f => decide ((s.frameAt f).st = 2)).take want).foldl (fun s f =>
      let x := s.frameAt f
      if x.powered then s.setFrame f { x with back := true } else s.frameStartUp f) s.pairDomains

/-- The manager's POWER_STATE FULL completes once its frames have returned. (DESIGN CHOICE, log 82) -/
def State.fullCheck (s : State) : State :=
  match (s.instAt 0).busy with
  | some b => if b.wait = .powerFull ∧ s.pw.fullAsked = false ∧ s.fullDone = true then s.complete 0 { status := .ok, tag := b.tag, op := b.op, detail := 0, result := 0 } else s
  | none => s

/-- Park entered at a round (R407, R409, R410): the frames, which hold nothing, become empty and are powered down from STATE 2; those out of
service have no power. Once all are down the manager's command completes. (DESIGN CHOICE, log 82) -/
def State.parkCheck (s : State) : State :=
  if !s.pw.parkAsked then s
  else
    let s := (List.range 24).foldl (fun s f =>
      if decide ((s.frameAt f).st ≠ 3) && s.frameEmpty f then (s.modFrame f fun x => { x with st := 2, back := false }).frameOff f else s) s
    if (List.range 24).any fun f => frameOn s f then s
    else
    let s := { s with pw := { s.pw with parkAsked := false } }
    let s := (s.setReg 0x020000 (putFld (s.reg 0x020000) 5 3 2)).pairDomains
    match (s.instAt 0).busy with
    | some b => if b.wait = .powerPark then s.complete 0 { status := .ok, tag := b.tag, op := b.op, detail := 0, result := 0 } else s
    | none => s

/-- A SOLO device with a twin that follows becomes PRIMARY at the first round at which it is eligible (R367). (DEDUCED, log 141) -/
def State.leadRound (s : State) : State :=
  if s.role = 0 ∧ s.mayLead = true ∧ s.linkUp = true ∧ s.tw.peer.known = true ∧ 2 ≤ s.tw.peer.role then s.becomePrimary else s

/-- A board's posts per 120 ms (R266). -/
def State.boardPosts (d : BoardDesc) : Nat := (d.len1 + 1) * max d.expect.toNat d.expectNext.toNat * (48 / (periodMul d.period).getD 1)

/-- A board is to be homed on frame f at its next boundary (R271). -/
def State.rehomeAt (s : State) (b f : Nat) : State :=
  let d := s.board b
  let g := curPeriod ((periodMul d.period).getD 1) s.now + 1
  { s with boards := tblSet {} s.boards b { d with plan := some (f, g) } }.decide_ (.rehome b f g)

/-- A board of a draining frame is to be rehomed at its next boundary, where a frame takes it (R271, R272). (DEDUCED, log 141) -/
def State.planBoard (s : State) (b : Nat) : State :=
  let d := s.board b
  match s.homeFor d.home (s.boardWords b) (State.boardPosts d) with
  | some f => s.rehomeAt b f
  | none => s

/-- A coach of a draining frame is to move at its next boundary, where a place is found (R270, R272). (DEDUCED, log 141) -/
def State.planCoach (s : State) (c : Nat) : State :=
  let k := s.coach c
  match s.place (s.whole k) (some c) with
  | some r =>
    let g := curPeriod k.mul s.now + 1
    (s.setCoach c { k with moveTo := some (r, g) }).decide_ (.move c r g)
  | none => s

/-- Moves decided at a round (R254, R269 to R272, R442): the coaches, at most MOVES_PER_ROUND with the merges made, and the boards of draining
frames. (DEDUCED, log 141) -/
def State.planMoves (s : State) (made : Nat) : State :=
  if !s.leads then s
  else
    let most := (if s.policy 5 = 0 then 64 else s.policy 5) - made
    let cs := (s.admitted.filter fun x => decide ((s.frameAt (frameOf x.2.reck)).st = 1) && x.2.moveTo.isNone).map Prod.fst
    let bs := (s.boards.filter fun x =>
      x.2.valid && decide ((s.frameAt x.2.home).st = 1) && x.2.old.isNone && x.2.plan.isNone).map Prod.fst
    bs.foldl (fun s b => s.planBoard b) ((cs.take most).foldl (fun s c => s.planCoach c) s)

/-- The merge the Innkeeper chooses at a round, if it makes one, and how many it makes (R260, R442). (DESIGN CHOICE, log 77) -/
def State.mergeAt (s : State) (merge : Option (Nat × Nat)) : State × Nat :=
  match merge with
  | some (a, b) =>
    let g := firstPeriodAfter (s.coach b).mul s.now
    if s.leads && s.mayMerge a b then ((s.mergeCoaches a b g).decide_ (.merge a b g), 1) else (s, 0)
  | none => (s, 0)

/-- ROUND (R257): the next round begins when device time has reached it. `merge` names two coaches the Innkeeper chooses to
merge, if it merges any. (DESIGN CHOICE, log 8; DESIGN CHOICE, log 77) -/
def execRound (merge : Option (Nat × Nat)) (s : State) : Result :=
  .next (
    if s.time < (s.ik.round + 1) * 2 ^ 38 ∨ !s.regOn 0x0C0000 then s
    else
      let s := { s with ik := { s.ik with round := s.ik.round + 1, spread := s.bit 0x0C0004 15 } }.count 3138 1
      let s := s.inst.foldl (fun s x => s.modInst x.1 Inst.atRound) s
      let s := s.inst.foldl (fun s x => s.pendingReductions x.1) s
      let s := (List.range 24).foldl (fun s f =>
        let x := s.frameAt f
        if x.back && x.powered then s.setFrame f { x with st := 0, back := false } else s) s
      let r := s.fullStart.policyFrame.devState.fullCheck.parkCheck.leadRound.recalNext.mergeAt merge
      r.1.planMoves r.2)

/-! ### Period boundaries -/

/-- A board freed (R80): its descriptor and blocks cleared; its BOARD_RELEASE completes. -/
def State.freeBoard (s : State) (b : Nat) : State :=
  let owner := (s.board b).owner
  let s := { s with
    boards := tblSet {} s.boards b {}
    blocks := s.blocks.filter fun x => x.1 / 512 != b
    ik := { s.ik with releasing := tblDrop s.ik.releasing b } }
  match (s.instAt owner).busy with
  | some x => if x.wait = .boardRelease b then s.complete owner { status := .ok, tag := x.tag, op := x.op, detail := 0, result := 0 } else s
  | none => s

/-- A stream removed after its last period (R305): its entry, keys and place in its coach. -/
def State.freeStream (s : State) (i : Nat) : State :=
  let x := s.stream i
  let s := { s with gh := { s.gh with
    streams := tblSet {} s.gh.streams i {}
    keys := s.gh.keys.filter fun k => match k.2 with | some y => y.stream != i | none => true
    stash := s.gh.stash.filter fun y => y.stream != i
    police := s.gh.police.filter fun p => p.1 / 4 != i
    srtp := if x.srtp then [x.ctxA, x.ctxB].foldl (fun t c => tblSet {} t c {}) s.gh.srtp else s.gh.srtp } }
  match (s.instAt x.owner).busy with
  | some b => if b.wait = .close i then s.complete x.owner { status := .ok, tag := b.tag, op := b.op, detail := 0, result := 0 } else s
  | none => s

/-- The anchors its jobs have moved take effect for a coach's streams (R232). (DESIGN CHOICE, log 121) -/
def State.anchorsMoved (s : State) (ms : List Member) : State :=
  ms.foldl (fun s m =>
    let x := s.stream m.stream
    match x.nextAnchor with
    | some a => { s with gh := { s.gh with streams := tblSet {} s.gh.streams m.stream { x with tsAnchor := a.1, periodAnchor := a.2, nextAnchor := none } } }
    | none => s) s

/-- The libraries in service at an instant (R437): those active, and those whose activation has come by then. -/
def State.libsAt (s : State) (t : Nat) : Tbl Word :=
  let now := (s.cf.active.filter fun a => decide (a.1 / 64 = 4)).map fun a => (a.1 % 64, a.2.pver)
  (s.cf.acts.filter fun a => decide (a.piece.kind = 4) && !a.taken && decide (boundaryOf 1 a.instant ≤ t)).foldl
    (fun l a => tblSet 0#16 l a.piece.index a.piece.pver) now

/-- A reckoner that takes a waybill stamped t runs the kernel in service at t (R437): the old one changes over between jobs. -/
def State.kernelTurn (s : State) (r t : Nat) : State :=
  let due := s.cf.acts.find? fun a => decide (a.piece.kind = 3) && !a.taken && decide (boundaryOf 1 a.instant ≤ t)
  let v := match due with
    | some a => some a.piece.pver
    | none => if s.cf.kernelFrom ≤ t then (tblFind s.cf.active (3 * 64)).map fun a => a.pver else none
  match v with
  | some v => { s with cf := { s.cf with kernels := tblSet 0#16 s.cf.kernels r v } }
  | none => s

/-- Coach c at its boundary g (R260, R270, R272): members whose last period has ended leave, an empty or withdrawn coach goes, a
coming move takes place; after one off a frame that the twin lacks, the coach's state is sent to it, and a secondary whose frame it comes to
is out of service leaves it UNPROTECTED (R378). -/
def State.coachBoundary (s : State) (c g : Nat) : State :=
  let k := s.coach c
  let gone := k.members.filter fun m => match m.last with | some l => decide (l < g) | none => false
  let k1 := { k with members := k.members.filter fun m => match m.last with | some l => decide (g ≤ l) | none => true }
  let k1 := { k1 with libs := s.libsAt (boundaryOf k.mul g) }
  let s := (s.setCoach c k1).anchorsMoved k.members
  let s := gone.foldl (fun s m => if (s.stream m.stream).closing.isSome then s.freeStream m.stream else s) s
  let out := match k1.withdrawn with | some w => decide (w < g) | none => false
  if k1.members = [] ∨ out = true then
    let s := k1.members.foldl (fun s m => s.freeStream m.stream) s
    { s with ik := { s.ik with coaches := tblSet {} s.ik.coaches c {}, resting := tblSet 0 s.ik.resting c (boundaryOf k.mul (g + 1)) } }
  else
    match k1.moveTo with
    | some (r, gm) =>
      if gm ≤ g then
        let lacked := decide (s.role = 1) && s.linkUp && !s.twinHas (frameOf k1.reck)
        ((s.setCoach c { k1 with reck := r, moveTo := none, firstHere := true, sendState := k1.sendState || lacked
                                 unprotected := k1.unprotected || s.unserved r }).setBit 0x0C0001 4).count 3141 1
      else s
    | none => s

/-- Board b at its boundary g (R271): the old home's banks are released, and a coming change of home takes place. -/
def State.boardBoundary (s : State) (b g : Nat) : State :=
  let d := s.board b
  let d := match d.old with | some (_, l) => if l < g then { d with old := none } else d | none => d
  match d.plan with
  | some (f, h) =>
    if h ≤ g then
      ({ s with boards := tblSet {} s.boards b { d with home := f, old := some (d.home, g), plan := none } }.setBit 0x0C0001 4).count 3141 1
    else { s with boards := tblSet {} s.boards b d }
  | none => { s with boards := tblSet {} s.boards b d }

/-- Posts of generations that have ended are counted before a boundary (R77). (DEDUCED, log 75) -/
def State.settlePosts (s : State) (i : Nat) : State :=
  let due := fun (p : Post) =>
    let m := (periodMul p.period).getD 1
    decide ((p.gen - BitVec.ofNat 32 (i / m)).toInt < 0)
  let mine := s.posts.filter due
  mine.foldl (fun s p => s.applyPost p) { s with posts := s.posts.filter fun p => !due p }

/-- A waybill that names a board may still run: some coach's entries name it (R80). -/
def State.boardNamed (s : State) (b : Nat) : Bool :=
  s.admitted.any fun x => x.2.boards.any fun w => w.getLsbD 15 && decide (fld w 0 12 = b)

/-- What a boundary of the grid does, in order: padding and posts of ended periods (R77, R511), merges, coaches, boards, releases
(R80), fallback codes (R280). -/
def State.gridBoundary (s : State) (i : Nat) : State :=
  let s := s.ik.coaches.foldl (fun s x => if i % x.2.mul = 0 then s.padLost x.1 else s) s
  let s := (s.settlePosts i).mergesAt i
  let s := (s.ik.coaches.filter fun x => x.2.valid && decide (i % x.2.mul = 0)).foldl (fun s x => s.coachBoundary x.1 (i / x.2.mul)) s
  let s := (s.boards.filter fun x => x.2.valid && decide (i % (periodMul x.2.period).getD 1 = 0)).foldl (fun s x =>
    s.boardBoundary x.1 (i / (periodMul x.2.period).getD 1)) s
  let s := (s.ik.releasing.filter fun x =>
    decide (x.2 ≤ boundaryOf 1 i) && decide (i % (periodMul (s.board x.1).period).getD 1 = 0) && !s.boardNamed x.1).foldl (fun s x => s.freeBoard x.1) s
  (s.gh.streams.filter fun x => decide (i % x.2.mul = 0)).foldl (fun s x =>
    match x.2.nextFallback with
    | some (code, g) => if g ≤ i / x.2.mul then s.setStream x.1 { x.2 with fallback := code, nextFallback := none } else s
    | none => s) s

/-- The digests not yet sent go to the twin in one batch (R371). -/
def State.sendDigests (s : State) : State :=
  let l := s.tw.digests.filter fun d => !d.sent
  if l = [] ∨ !s.compares then s
  else
    let own := s.tw.digests.map fun d => Digest.asSent d (s.bit 0x3C0000 15)
    ({ s with tw := { s.tw with digests := own } }.linkSend 8 0 (l.flatMap fun d => (Digest.asSent d (s.bit 0x3C0000 15)).body)).settleDigests

/-- PERIOD_BOUNDARY (R255): the next boundary of the 2.5 ms grid, once device time has reached it. (DESIGN CHOICE, log 8) -/
def execPeriodBoundary (s : State) : Result :=
  .next (
    let i := s.ik.grid + 1
    if s.time < boundaryOf 1 i ∨ !s.regOn 0x0C0000 then s
    else ({ s with ik := { s.ik with grid := i } }.gridBoundary i).sendDigests)

/-! ### Waybills -/

/-- The waybill of period g (R264). (DESIGN CHOICE, log 76) -/
def State.waybill (s : State) (c g : Nat) (state depart : Addr) : List Word :=
  let k := s.coach c
  let p := s.progOf k
  let n := (k.at_ g).length
  [BitVec.ofNat 16 (k.period * 8192 + s.coachFallback k g % 8 * 1024 + 512 + k.inst), BitVec.ofNat 16 c, BitVec.ofNat 16 (n * 2048 + k.prog)] ++
    toWords (g % 2 ^ 32) 2 ++ toWords (usUnits (k.rel - 100)) 3 ++ toWords (usUnits k.rel) 3 ++
    toWords (p.fixed + n * p.perChannel) 2 ++ toWords p.entry 3 ++ toWords state.toNat 3 ++ [BitVec.ofNat 16 (p.staged * n)] ++
    toWords depart.toNat 3 ++ [BitVec.ofNat 16 ((if k.firstHere then 0x8000 else 0) + (if k.overran then 0x4000 else 0))] ++
    ((List.range 16).map fun i => wordAt (k.boardsIn g) i &&& 0xCFFF#16) ++ ((List.range 8).map fun i => wordAt p.args i)

/-- 250 ns in device units, rounded up (R14). -/
def payloadWait : Nat := 250 * 2 ^ 48 / 10 ^ 9 + 1

/-- The device runs coaches at boundary i (R366, R373, R394): it leads, and 250 ns have passed since the boundary, so that every
payload stamped before it stands in its ring (R14); or it is a synced secondary, or one being synced, 1,000 ns have passed since
the boundary, and its CUT has been applied (R375). (DESIGN CHOICE, log 76) -/
def State.runsCoaches (s : State) (i : Nat) : Bool :=
  (s.leads && decide (boundaryOf 1 i + payloadWait ≤ s.now)) || ((decide (s.role = 3) || s.sync) && decide (i ≤ s.tw.lastCut) && decide (boundaryOf 1 i + usUnits 1 ≤ s.now))

/-- The period whose waybill a coach is due: it has begun, and the coach is in it and not held back by a resync (R384). (DESIGN CHOICE, log 76) -/
def State.dueWaybill (s : State) (c : Nat) : Option Nat :=
  let k := s.coach c
  let g := curPeriod k.mul s.time
  if k.valid && !k.unprotected && decide (g * k.mul ≤ s.ik.grid) && decide (k.first ≤ g) && decide (k.at_ g ≠ []) && decide (k.lastIssued ≠ some g) &&
      (match k.withdrawn with | some w => decide (g ≤ w) | none => true) &&
      (match k.resume with | some h => decide (h ≤ g) | none => true) && s.runsCoaches (g * k.mul) then some g else none

/-- The coach is the next of its reckoner: by absolute deadline, then coach number (R263). (DESIGN CHOICE, log 76) -/
def State.isNext (s : State) (c g : Nat) : Bool :=
  let k := s.coach c
  let key := fun (d h : Nat) (y : Coach) => (boundaryOf y.mul h + usUnits (y.rel - 100)) * 65536 + d
  s.admitted.all fun x =>
    decide (x.1 = c) || decide (x.2.reck ≠ k.reck) ||
      (match s.dueWaybill x.1 with
       | some h => decide (key c g k < key x.1 h x.2)
       | none => true)

/-- The periods of channels that a period of a coach counts (R347). (DEDUCED, log 73) -/
def State.billPeriod (s : State) (c g : Nat) : State :=
  let k := s.coach c
  s.bill k.inst lcChTime ((k.at_ g).length * k.mul) (boundaryOf k.mul g)

/-- Words a period stages in for its coach (R347). -/
def State.billStaged (s : State) (c g : Nat) : State :=
  let k := s.coach c
  s.bill k.inst lcDram ((s.progOf k).staged * (k.at_ g).length) (boundaryOf k.mul g)

/-- The state that a coach resync brought is installed before its first period is staged (R384). -/
def State.installState (s : State) (c g : Nat) : State :=
  match (s.coach c).incoming with
  | some (h, ws) =>
    if h ≤ g then
      (s.writeMem (s.coach c).stateBase ws).modCoach c fun k => { k with incoming := none, resume := none, holdDigest := false, compareFrom := h }
    else s
  | none => s

/-- Words that a period has staged in a local store: its channels' state, then the slots of its payloads. -/
def State.stagedWords (s : State) (k : Coach) (g : Nat) : Nat :=
  (k.at_ g).foldl (fun n m => n + (s.progOf k).staged + (s.stream m.stream).slotWords) 0

/-- The uncorrectable words that staging period g of a coach meets, so that it stops (R210, R461): of the channels' state, then of the
slots its payloads stand in. -/
def State.stageBad (s : State) (k : Coach) (g : Nat) : List Nat × List Nat :=
  let bad := fun (a n : Nat) => ((List.range n).map (a + ·)).filter (isBad s)
  ((k.at_ g).flatMap fun m => bad (s.stateOf k m.slot) (s.progOf k).staged,
   (k.at_ g).flatMap fun m => let x := s.stream m.stream; bad (x.slotAt m.leg g) x.slotWords)

/-- A period staged in the local store at `at_` (R14, R263): each channel's state, and behind it the slots its payloads of the
period stand in, channel by channel. (DESIGN CHOICE, log 76) -/
def State.stageIn (s : State) (c g at_ : Nat) : State :=
  let k := s.coach c
  let p := s.progOf k
  let s := (k.staged g).foldl (fun s q => s.copyWords (s.stateOf k q.2.slot) (at_ + q.1 * p.staged) p.staged) s
  let r := (k.staged g).foldl (fun r q =>
    let x := r.1.stream q.2.stream
    (r.1.copyWords (x.slotAt q.2.leg g) r.2 x.slotWords, r.2 + x.slotWords)) (s, at_ + p.staged * (k.at_ g).length)
  (r.1.chainDone k.reck k.chain (s.stagedWords k g)).modCoach c fun k => { k with stagedAt := some at_ }

/-- Staging that meets an uncorrectable group (R461, R463): the reckoner's courier channel stops with error 3, the period ends in
its fallback with mark E, and a SOLO device has the groups to zero. -/
def State.stageFailed (s : State) (c g : Nat) : State :=
  let k := s.coach c
  let bad := s.stageBad k g
  let s := s.chainStopped k.reck ((bad.1 ++ bad.2).headD 0) (c, g)
  ((s.groupsFound (bad.1 ++ bad.2)).mark c fun j => { j with err := true }).fallback c g

/-- An own-view address as a physical one of reckoner e, where n words from it lie in e's local store. -/
def ownPlace (e : EngId) (a : Addr) (n : Nat) : Option Nat :=
  let pa := canonPa e a.toNat
  if ownBase e ≤ pa ∧ pa + n ≤ ownBase e + 0x20000 then some pa else none

/-- A period of a coach begins: it counts, and the state that a coach resync brought is installed (R347, R384). -/
def State.periodBegun (s : State) (c g : Nat) : State :=
  ((s.modCoach c fun k => { k with issued := some g, lastIssued := some g, ended := { period := g }
                                   firstHere := false, overran := false, stagedAt := none }).billPeriod c g).installState c g

/-- WAYBILL_ISSUE (R14, R208, R263, R264, R461, R509): coach c's state and payloads are staged at the own-view address given, by a chain of
that many descriptors on the courier channel of its reckoner whose turn it is, and its waybill is delivered. Addresses that name no
place in the local store name no job buffer, and nothing is issued there. A halted reckoner is issued none (R478); of one in
checkstop or without power the period is lost (R460, R511). (DESIGN CHOICE, log 76; DESIGN CHOICE, log 197) -/
def execWaybillIssue (c : Nat) (state depart : Addr) (chain : Nat) (s : State) : Result :=
  .next (
    match s.dueWaybill c with
    | none => s
    | some g =>
      let k := s.coach c
      let e := reckoner k.reck
      match s.isNext c g, ownPlace e state (s.stagedWords k g), decide ((s.engAt e).run = .halted) with
      | true, some pa, false =>
        let ws := s.waybill c g state depart
        let s := (s.periodBegun c g).modCoach c fun k => { k with chain := max 1 chain }
        if !engInService s e then s.periodLost c g none fun j => { j with err := true }
        else
          let r := deliver s e 3 1#16 (boundaryOf k.mul g) ws
          if r.2 then
            let s := ((r.1.count 3139 1).billStaged c g).kernelTurn k.reck (boundaryOf k.mul g)
            if s.stageBad (s.coach c) g = ([], []) then s.stageIn c g pa else s.stageFailed c g
          else r.1.periodLost c g none fun j => { j with watchdog := true }
      | _, _, _ => s)

/-- The periods of a halted reckoner's coaches whose deadline has passed (R478), issued or not: the stewards emit their fallbacks, and their
digests have mark D. (DEDUCED, log 160) -/
def State.haltedPeriod (s : State) (c : Nat) : State :=
  let k := s.coach c
  let e := reckoner k.reck
  if (s.engAt e).run ≠ .halted then s
  else
    let lost := fun (s : State) (g : Nat) => s.periodLost c g (s.metered e c) fun j => { j with dbg := true }
    match k.issued, s.dueWaybill c with
    | some g, _ => if s.deadlineOf k g ≤ s.time then lost s g else s
    | none, some g => if s.deadlineOf k g ≤ s.time then lost (s.periodBegun c g) g else s
    | none, none => s

/-- What follows an edge: the watchdogs that have fired are answered, the deadlines of halted reckoners' periods, the debug port's 20 µs
and the 2 ms of VCORE_EN (R265, R467, R478, R493). -/
def State.deadlines (s : State) : State := (s.admitted.foldl (fun s x => s.haltedPeriod x.1) s.watchdogs).debugExpire.vcoreRise

/-! ### Best-effort jobs -/

/-- Order of issue (R277): finish tag, instance, submission. -/
def BeJob.before (a b : BeJob) : Bool :=
  a.finish.before b.finish || (!b.finish.before a.finish && (decide (a.inst < b.inst) || (decide (a.inst = b.inst) && decide (a.id < b.id))))

/-- A job's need of each bucket, in 1,024ths (R277). -/
def State.beNeed (s : State) (j : BeJob) : List Int := [(j.budget : Int) * 1024, 1024, ((s.prog j.inst j.prog).beState : Int) * 4 * 1024]

/-- Each bucket holds at least the need or is full. -/
def State.beReady (s : State) (j : BeJob) : Bool :=
  let i := s.instAt j.inst
  (List.range 3).all fun k =>
    decide ((s.beNeed j).getD k 0 ≤ i.buckets.getD k 0) || decide (bucketMax (i.limits.getD k 0) ≤ i.buckets.getD k 0)

/-- Jobs waiting, in the order of issue. -/
def State.beWaiting (s : State) : List BeJob :=
  (s.ik.bejobs.filter fun j => j.issued.isNone).foldl (fun l j =>
    (l.takeWhile fun x => x.before j) ++ [j] ++ (l.dropWhile fun x => x.before j)) []

/-- The waybill of a best-effort job (R264). -/
def State.beWaybill (s : State) (j : BeJob) (state depart : Addr) : List Word :=
  let p := s.prog j.inst j.prog
  [BitVec.ofNat 16 j.inst, j.tag, BitVec.ofNat 16 (2048 + j.prog)] ++ List.replicate 8 0#16 ++ toWords j.budget 2 ++ toWords p.entry 3 ++
    toWords state.toNat 3 ++ [BitVec.ofNat 16 p.beState] ++ toWords depart.toNat 3 ++ List.replicate 17 0#16 ++
    ((List.range 8).map fun i => wordAt p.args i)

/-- A best-effort job issued to a reckoner in a round: its need taken, its state staged in, its waybill delivered now; one that is
dropped ends there. (DEDUCED, log 74; DESIGN CHOICE, log 179) -/
def State.issueBe (s : State) (j : BeJob) (r round : Nat) (state depart : Addr) : State :=
  let need := s.beNeed j
  let p := s.prog j.inst j.prog
  let place := ownPlace (reckoner r) state p.beState
  let s := s.modInst j.inst fun i => { i with buckets := (List.range 3).map fun k => i.buckets.getD k 0 - need.getD k 0 }
  let s := { s with ik := { s.ik with beTag := j.finish } }.modBe j.id fun x => { x with issued := some (r, round), stagedAt := place, libs := s.libsAt s.now }
  let s := (s.bill j.inst lcBeJobs 1 (round * 2 ^ 38)).count 3140 1
  let s := match place with
    | some pa =>
      match (List.range p.beState).find? fun i => isBad s (p.beBase + i) with
      | some i => (s.groupsFound (s.badWords p.beBase p.beState)).chainStopped r (p.beBase + i) (0xFFFF, 0)
      | none => (s.copyWords p.beBase pa p.beState).beMoved j r (round * 2 ^ 38)
    | none => s
  let (t, s) := s.readTime
  let s := s.kernelTurn r t
  let d := deliver s (reckoner r) 3 2#16 t (s.beWaybill j state depart)
  if d.2 then d.1
  else d.1.beJobEnd { j with issued := some (r, round), fault := true } 0

/-- BE_ISSUE (R277, R279): the first waiting job whose tokens allow goes to reckoner r; a job ahead of it that waits for tokens
sets IK_EVT.BE_LIMITED. (DEDUCED, log 74; DESIGN CHOICE, log 77) -/
def execBeIssue (r : Fin 192) (state depart : Addr) (s : State) : Result :=
  .next (
    if s.bit 0x0C0000 15 ∨ s.parking = true ∨ !s.leads ∨ !s.placeable (frameOf r.val) ∨ !engInService s (reckoner r.val) ∨ (s.engAt (reckoner r.val)).run = .halted then s
    else
      let w := s.beWaiting
      let s := if w.any fun j => !s.beReady j then s.setBit 0x0C0001 6 else s
      match w.find? fun j => s.beReady j with
      | some j =>
        match ownPlace (reckoner r.val) state (s.prog j.inst j.prog).beState with
        | some _ => (s.issueBe j r.val s.ik.round state depart).decide_ (.beIssue j.id r.val s.ik.round)
        | none => s
      | none => s)

/-! ### Drains -/

/-- DRAIN_COMPLETE (R272, R397, R407, R458, R460): STATE becomes 2; a frame that leaves service goes down and reads 3; one drained to be
recalibrated is powered down and up again; the manager's FRAME_DRAIN completes. -/
def execDrainComplete (f : Fin 24) (s : State) : Result :=
  .next (
    let x := s.frameAt f.val
    if x.st = 1 ∧ s.frameEmpty f.val = true then
      let s := s.setFrame f.val { x with st := 2 }
      let s := if x.retire then (s.frameRetired f.val).devState
        else if x.recal then (s.frameOff f.val).frameStartUp f.val
        else s
      match (s.instAt 0).busy with
      | some b => if b.wait = .drain f.val then s.complete 0 { status := .ok, tag := b.tag, op := b.op, detail := 0, result := 0 } else s
      | none => s
    else s)

end Sys2Proof.Machine
end

