-- ==== Sys2Proof/Machine/Host.lean ====
section
/-! DEFINITION. How a command of a ring is read, checked, committed and completed (R295, R296, R301 to R305, R308, R376, R377, R443,
R450). -/
namespace Sys2Proof.Machine

/-- What carrying out a command answers: its status and detail, its RESULT, what its completion waits for, the device after it,
whether it changed state, whether the twin carries it out whatever the answer (R436), what was decided: where what it admitted stands, a
coach on a reckoner, a board on a frame, or which shares wait (R254), the boundary at which it takes effect, and what it read of host
memory, which its COMMIT carries (R371, R374). -/
structure Ans where
  s : State
  st : Status := .ok
  detail : Nat := 0
  result : Nat := 0
  wait : Option Wait := none
  quiet : Bool := false
  mirrored : Bool := false
  placed : Option (Nat × Nat) := none
  effect : Option Nat := none
  blocks : List (List Word) := []
  octets : List Byte := []

/-- The words a command has read, carried by its COMMIT (R371). -/
def Ans.withBlock (ws : List Word) (a : Ans) : Ans := { a with blocks := ws :: a.blocks }

/-- The octets a command has read, carried by its COMMIT (R371). -/
def Ans.withOctets (o : List Byte) (a : Ans) : Ans := { a with octets := o }

/-- The command is refused, with no effect. -/
def Ans.no (s : State) (st : Status) (detail : Nat) : Ans := { s := s, st := st, detail := detail }

/-- A field is out of range or a reserved bit set (R308). -/
def Ans.field (s : State) : Ans := Ans.no s .badArgument 0x58

/-- The command is done. -/
def Ans.ok (s : State) (result : Nat := 0) : Ans := { s := s, result := result }

/-- The command is accepted; its completion waits. -/
def Ans.later (s : State) (w : Wait) (result : Nat := 0) : Ans := { s := s, wait := some w, result := result }

/-- The words of an entry (R296). -/
def entryWords (e : Entry) (op : Nat) : List Word :=
  [BitVec.ofNat 16 (e.hi.toNat * 256 + op), e.tag, e.w2] ++ ((List.range 29).map fun i => wordAt e.args i)

/-- Argument word w3 + i. -/
def entryArg (e : Entry) (w : Nat) : Word := wordAt e.args (w - 3)

/-- Argument words from w on as one value. -/
def entryArgs (e : Entry) (w n : Nat) : Nat := wordsAt e.args (w - 3) n

/-- Every argument word outside the list is 0, and none stands past word 31 (R296). -/
def entryUses (e : Entry) (used : List Nat) : Bool :=
  decide (e.args.length ≤ 29) && (List.range 29).all fun i => used.contains (i + 3) || decide (wordAt e.args i = 0#16)

/-- No command of this ring is in execution, or waits behind one (R301). -/
def Inst.idle (i : Inst) : Bool := i.busy.isNone && decide (i.behind = [])

/-- The device may read the head of this ring (R287, R293, R295, R309, R376), as far as commands in execution allow, which `free` says: of an
instance that has left ACTIVE, only the command that was in execution then. -/
def State.ringReadyAs (s : State) (n : Nat) (free : Bool) : Bool :=
  let i := s.instAt n
  s.bit 0x030000 14 && s.ringWaits n && !s.dmaOff && !s.fn.perstLow && free && i.heldCpl.isNone &&
    (decide (i.st = .active) || i.late) && (decide (n = 0) || s.leads) && !(decide (s.role = 1) && s.tw.handover.isSome)

/-- The device may read the head of this ring: no command of it is in execution. (DESIGN CHOICE, log 68; DESIGN CHOICE, log 97) -/
def State.ringReady (s : State) (n : Nat) : Bool := s.ringReadyAs n (s.instAt n).idle

/-- The rings are read round-robin in ascending instance order (R301): no ring between the last one read and this one may be read. (DESIGN CHOICE, log 68) -/
def State.ringTurn (s : State) (n : Nat) : Bool :=
  (List.range ((n + 511 - s.fn.lastRing) % 512)).all fun d => !s.ringReady ((s.fn.lastRing + 1 + d) % 512)

/-- The device reads the command at the head of this ring now (R295, R301). -/
def State.readsRing (s : State) (n : Nat) : Bool := s.ringReady n && s.ringTurn n

/-- An activation of a piece is in execution on this ring. -/
def Inst.activating (i : Inst) : Bool :=
  match i.busy with
  | some b => (match b.wait with | .activation _ _ => true | _ => false)
  | none => false

/-- The device reads an activation at the head of this ring now (R301, R438): as any command, or while activations read before it are
pending, so that those of different kinds are pending together. (DESIGN CHOICE, log 68) -/
def State.readsActivation (s : State) (n : Nat) : Bool := s.ringReadyAs n ((s.instAt n).idle || (s.instAt n).activating) && s.ringTurn n

/-- The device once the command at the head of a ring is read: HEAD has advanced (R295, R301). -/
def State.cmdRead (s : State) (n : Nat) : State :=
  let s := s.hostRead n (s.ringBase n 3 + 64 * ((s.reg (portal n 5)).toNat % 2 ^ s.ringLog2 n 3)) 64
  let s := { s with fn := { s.fn with lastRing := n } }.modInst n fun i => { i with late := false }
  (s.setReg (portal n 5) (s.reg (portal n 5) + 1)).count 3160 1

/-- Commands that the device's own role does not bar on ring 0 (R377): LEDGER_RING, SNAPSHOT, JOURNAL_READ, CONFIRM, TWIN_RESYNC. -/
def anyRole (e : Entry) (op : Nat) : Bool :=
  decide (op = 0x14) || decide (op = 0x15) || decide (op = 0x12) || decide (op = 0x19) || (decide (op = 0x11) && decide (entryArg e 3 = 2#16))

/-- Commands never mirrored (R377). -/
def localOnly (e : Entry) (op : Nat) : Bool :=
  decide (op = 0x15) || decide (op = 0x12) || decide (op = 0x19) || (decide (op = 0x14) && decide (entryArg e 3 ≠ 2#16)) ||
    (decide (op = 0x11) && decide (entryArg e 3 = 2#16))

/-- Manager commands that name an instance (R304). -/
def namesInstance (e : Entry) (op : Nat) : Bool :=
  [0x01, 0x02, 0x03, 0x04, 0x05, 0x06, 0x08, 0x09, 0x0A].contains op || (decide (op = 0x14) && decide (entryArg e 3 = 2#16))

/-- The detail of a refusal for an instance in a state that is not ACTIVE. -/
def stateDetail (st : InstState) : Nat := if st = .quiescing then 0x21 else 0x22

/-- The checks before a command's own (R302 to R305, R377, R430, R450): none when it may be carried out. -/
def State.precheck (s : State) (e : Entry) (op : Nat) (mgr : Bool) : Option (Status × Nat) :=
  let n := e.ring.val
  let i := e.w2.toNat
  if mgr ∧ n ≠ 0 then some (.notPermitted, 0x41)
  else if !mgr ∧ n = 0 then some (.notPermitted, 0x42)
  else if n = 0 ∧ !s.leads ∧ !anyRole e op then some (.stateConflict, 0x60)
  else if s.bit 0x030000 13 ∧ !(op = 0x10 ∨ (op = 0x11 ∧ entryArg e 3 = 1#16)) then some (.stateConflict, 0x53)
  else if !s.bit 0x030000 15 ∧ !s.bit 0x030000 13 ∧ !(op = 0x01 ∨ op = 0x10 ∨ op = 0x11) then some (.stateConflict, 0x53)
  else if mgr ∧ namesInstance e op ∧ i = 0 then some (.notPermitted, 0x42)
  else if mgr ∧ namesInstance e op ∧ 512 ≤ i then some (.badArgument, 0x57)
  else if !(mgr ∧ namesInstance e op) ∧ i ≠ 0 then some (.badArgument, 0x58)
  else if e.hi ≠ 0#8 then some (.badArgument, 0x58)
  else if 15360 ≤ s.backlog ∧ op ≠ 0x12 ∧ op ≠ 0x15 ∧ op ≠ 0x49 then some (.stateConflict, 0x6E)
  else if mgr ∧ namesInstance e op ∧ op ≠ 0x03 ∧ op ≠ 0x14 ∧ (s.instAt i).st = .error then some (.instanceError, 0)
  else if !mgr ∧ (s.instAt n).st ≠ .active then some (.stateConflict, stateDetail (s.instAt n).st)
  else none

/-- The origin of a ring's commands (R441). -/
def ringOrigin (n : Nat) : Origin := if n = 0 then .manager else .instance_ n

/-- The command is refused. -/
def Ans.refused (a : Ans) : Bool := decide (a.st ≠ .ok) && decide (a.st ≠ .pending)

/-- A command's answer as a completion; the twin has its entry with the COMMIT where it is written now. -/
def State.cplOf (s : State) (e : Entry) (op : Nat) (a : Ans) : Cpl :=
  let n := e.ring.val
  { status := a.st, tag := e.tag, op := op, detail := a.detail, result := a.result
    told := a.wait.isNone && (s.instAt n).idle && s.cplReady n && !s.noticeHeld n }

/-- The COMMIT of a command (R301, R371, R374): its ring, HEAD, TAG and words, the decision, and its completion entry where it completes
now. (DESIGN CHOICE, log 131) -/
def State.commitOf (s : State) (e : Entry) (op : Nat) (a : Ans) (mseq : Nat) : Commit :=
  let n := e.ring.val
  let idx := s.reg (portal n 13)
  let c := s.cplOf e op a
  { mseq := mseq, part := if a.refused && !a.mirrored then .refused else .carriedOut, entry := e, op := BitVec.ofNat 8 op, time := s.now
    effect := a.effect, placed := a.placed, status := a.st, detail := a.detail, result := a.result, head := s.reg (portal n 5)
    tail := if c.told then idx + 1 else idx, cpl := if c.told then some (s.cplEntry n c) else none, blocks := a.blocks, octets := a.octets }

/-- A command's answer committed: a refusal leaves the device as it was but for what records it; the journal, the mirror, which tells the
twin of refusals too, and the completion follow (R268, R283, R301, R371, R374, R443). (DESIGN CHOICE, log 131) -/
def State.commitCmd (s : State) (e : Entry) (op : Nat) (a : Ans) : State :=
  let n := e.ring.val
  let t := a.s
  let t := if a.refused && decide (a.detail < 0x42) && decide (a.detail ≠ 0) then t.ikRefused n a.detail else t
  let t := if a.quiet && !a.refused then t
    else t.journal { origin := ringOrigin n, target := .command op e.tag, old := e.w2, new := BitVec.ofNat 16 a.result, status := a.st, detail := a.detail }
  let c := t.cplOf e op a
  let t := if localOnly e op then t
    else t.mirrorOut false fun m len fv => .commit len (sealedCommit fv { t.commitOf e op a m with time := s.now })
  if (t.instAt n).idle then
    match a.wait with
    | some w => t.modInst n fun i => { i with busy := some { op := op, tag := e.tag, result := a.result, wait := w } }
    | none => t.complete n c
  else t.modInst n fun i => { i with behind := i.behind ++ [(c, a.wait)] }

/-- The command at the head of a ring read and carried out. `used` are the argument words it uses. -/
def State.carryOut (s : State) (e : Entry) (op : Nat) (mgr : Bool) (used : List Nat) (body : State → Ans) : State :=
  let s := s.cmdRead e.ring.val
  match s.precheck e op mgr with
  | some (st, d) => s.commitCmd e op (Ans.no s st d)
  | none => s.commitCmd e op (if entryUses e used then body s else Ans.field s)

/-- A command of a ring: a ring that is not read leaves the device as it is. (DESIGN CHOICE, log 68) -/
def runCmd (e : Entry) (op : Nat) (mgr : Bool) (used : List Nat) (body : State → Ans) (s : State) : State :=
  if !s.readsRing e.ring.val then s else s.carryOut e op mgr used body

/-- A read of host memory for a command failed (R293, R308, R318), with the cause of R293: it is reported, the instance enters ERROR and
the command completes with INSTANCE_ERROR. -/
def Ans.unread (s : State) (n cause : Nat) : Ans := Ans.no ((s.aerCause cause).instanceError n cause) .instanceError 0x5A

/-- A read of host memory for a command (R306, R312): what the host answers goes on to the command. A device that carries out its twin's
command reads nothing. -/
def State.reading (s : State) {α : Type} (n addr bytes : Nat) (r : HostRead α) (keep : α → Ans → Ans) (f : α → State → Ans) : Ans :=
  let t := if s.leads && decide (bytes ≠ 0) then s.hostRead n addr bytes else s
  match r with
  | .data x => keep x (f x t)
  | .refused => Ans.unread (if s.leads && decide (bytes ≠ 0) then s.askRefused n (pagesOf addr bytes) (.hostRead (s.pasidOf n) addr bytes []) else s) n 1
  | .poisoned => Ans.unread t n 2
  | .timedOut => Ans.unread t n 3

/-- Argument words from a to b. -/
def wRange (a b : Nat) : List Nat := (List.range (b + 1 - a)).map (· + a)

end Sys2Proof.Machine
end

