-- ==== Sys2Proof/Machine/Ciphers.lean ====
section
/-! DEFINITION. The ciphers the spec names by their standards: SHA-384 and ECDSA over P-384 for images (R425, R426), and the
protection of SRTP and SRTCP (R234): SHA-1, AES, their keys and packets. -/
namespace Sys2Proof.Machine

/-! ### SHA-384 (R425: FIPS 180-4) -/

/-- The 80 round constants. -/
def sha384K : List (BitVec 64) :=
  [0x428a2f98d728ae22#64, 0x7137449123ef65cd#64, 0xb5c0fbcfec4d3b2f#64, 0xe9b5dba58189dbbc#64] ++
  [0x3956c25bf348b538#64, 0x59f111f1b605d019#64, 0x923f82a4af194f9b#64, 0xab1c5ed5da6d8118#64] ++
  [0xd807aa98a3030242#64, 0x12835b0145706fbe#64, 0x243185be4ee4b28c#64, 0x550c7dc3d5ffb4e2#64] ++
  [0x72be5d74f27b896f#64, 0x80deb1fe3b1696b1#64, 0x9bdc06a725c71235#64, 0xc19bf174cf692694#64] ++
  [0xe49b69c19ef14ad2#64, 0xefbe4786384f25e3#64, 0x0fc19dc68b8cd5b5#64, 0x240ca1cc77ac9c65#64] ++
  [0x2de92c6f592b0275#64, 0x4a7484aa6ea6e483#64, 0x5cb0a9dcbd41fbd4#64, 0x76f988da831153b5#64] ++
  [0x983e5152ee66dfab#64, 0xa831c66d2db43210#64, 0xb00327c898fb213f#64, 0xbf597fc7beef0ee4#64] ++
  [0xc6e00bf33da88fc2#64, 0xd5a79147930aa725#64, 0x06ca6351e003826f#64, 0x142929670a0e6e70#64] ++
  [0x27b70a8546d22ffc#64, 0x2e1b21385c26c926#64, 0x4d2c6dfc5ac42aed#64, 0x53380d139d95b3df#64] ++
  [0x650a73548baf63de#64, 0x766a0abb3c77b2a8#64, 0x81c2c92e47edaee6#64, 0x92722c851482353b#64] ++
  [0xa2bfe8a14cf10364#64, 0xa81a664bbc423001#64, 0xc24b8b70d0f89791#64, 0xc76c51a30654be30#64] ++
  [0xd192e819d6ef5218#64, 0xd69906245565a910#64, 0xf40e35855771202a#64, 0x106aa07032bbd1b8#64] ++
  [0x19a4c116b8d2d0c8#64, 0x1e376c085141ab53#64, 0x2748774cdf8eeb99#64, 0x34b0bcb5e19b48a8#64] ++
  [0x391c0cb3c5c95a63#64, 0x4ed8aa4ae3418acb#64, 0x5b9cca4f7763e373#64, 0x682e6ff3d6b2b8a3#64] ++
  [0x748f82ee5defb2fc#64, 0x78a5636f43172f60#64, 0x84c87814a1f0ab72#64, 0x8cc702081a6439ec#64] ++
  [0x90befffa23631e28#64, 0xa4506cebde82bde9#64, 0xbef9a3f7b2c67915#64, 0xc67178f2e372532b#64] ++
  [0xca273eceea26619c#64, 0xd186b8c721c0c207#64, 0xeada7dd6cde0eb1e#64, 0xf57d4f7fee6ed178#64] ++
  [0x06f067aa72176fba#64, 0x0a637dc5a2c898a6#64, 0x113f9804bef90dae#64, 0x1b710b35131c471b#64] ++
  [0x28db77f523047d84#64, 0x32caab7b40c72493#64, 0x3c9ebe0a15c9bebc#64, 0x431d67c49c100d4c#64] ++
  [0x4cc5d4becb3e42b6#64, 0x597f299cfc657e2a#64, 0x5fcb6fab3ad6faec#64, 0x6c44198c4a475817#64]

/-- The initial hash value. -/
def sha384H : List (BitVec 64) :=
  [0xcbbb9d5dc1059ed8#64, 0x629a292a367cd507#64, 0x9159015a3070dd17#64, 0x152fecd8f70e5939#64] ++
  [0x67332667ffc00b31#64, 0x8eb44a8768581511#64, 0xdb0c2e0d64f98fa7#64, 0x47b5481dbefa4fa4#64]

/-- Word n of a list, 0 past its end. -/
def quadAt (l : List (BitVec 64)) (n : Nat) : BitVec 64 := l.getD n 0#64

/-- The message padded to whole 128-octet blocks. -/
def sha384Pad (m : List Byte) : List Byte :=
  m ++ 0x80#8 :: List.replicate ((239 - m.length % 128) % 128) 0#8 ++ beOctets (8 * m.length) 16

/-- The message schedule, newest word first, extended by k words. -/
def sha384Sched (w : List (BitVec 64)) : Nat → List (BitVec 64)
  | 0 => w
  | k + 1 =>
    let a := quadAt w 1
    let b := quadAt w 14
    let s1 := a.rotateRight 19 ^^^ a.rotateRight 61 ^^^ (a >>> 6)
    let s0 := b.rotateRight 1 ^^^ b.rotateRight 8 ^^^ (b >>> 7)
    sha384Sched ((s1 + quadAt w 6 + s0 + quadAt w 15) :: w) k

/-- One round on the eight working variables. -/
def sha384Round (v : List (BitVec 64)) (kw : BitVec 64) : List (BitVec 64) :=
  match v with
  | [a, b, c, d, e, f, g, h] =>
    let s1 := e.rotateRight 14 ^^^ e.rotateRight 18 ^^^ e.rotateRight 41
    let t1 := h + s1 + ((e &&& f) ^^^ (~~~e &&& g)) + kw
    let s0 := a.rotateRight 28 ^^^ a.rotateRight 34 ^^^ a.rotateRight 39
    [t1 + (s0 + ((a &&& b) ^^^ (a &&& c) ^^^ (b &&& c))), a, b, c, d + t1, e, f, g]
  | _ => v

/-- The hash value after one block of 16 words. -/
def sha384Block (hv blk : List (BitVec 64)) : List (BitVec 64) :=
  let w := (sha384Sched blk.reverse 64).reverse
  List.zipWith (fun a b => a + b) hv ((List.zipWith (fun k x => k + x) sha384K w).foldl sha384Round hv)

/-- The blocks of a padded message, in order. -/
def sha384Blocks (m : List Byte) : Nat → List (BitVec 64)
  | 0 => sha384H
  | k + 1 => sha384Block (sha384Blocks m k) ((List.range 16).map fun i => BitVec.ofNat 64 (beNat m (128 * k + 8 * i) 8))

/-- SHA-384 of octets: 48 octets. (PRESUMED, log 48) -/
def sha384 (m : List Byte) : List Byte :=
  let p := sha384Pad m
  ((sha384Blocks p (p.length / 128)).take 6).flatMap fun x => beOctets x.toNat 8

/-! ### ECDSA over P-384 (R426: FIPS 186-5) -/

/-- The field's prime. -/
def p384p : Nat := 2 ^ 384 - 2 ^ 128 - 2 ^ 96 + 2 ^ 32 - 1
/-- The curve's coefficient b. -/
def p384b : Nat := 0xb3312fa7e23ee7e4988e056be3f82d19181d9c6efe8141120314088f5013875ac656398d8a2ed19d2a85c8edd3ec2aef
/-- The base point. -/
def p384g : Nat × Nat :=
  (0xaa87ca22be8b05378eb1c71ef320ad746e1d3b628ba79b9859f741e082542a385502f25dbf55296c3a545e3872760ab7,
   0x3617de4a96262c6f5d9e98bf9292dc29f8f41dbd289a147ce9da3113b5f0b8c00a60b1ce1d7e819d7a431d7c90ea0e5f)
/-- The order of the base point. -/
def p384n : Nat := 0xffffffffffffffffffffffffffffffffffffffffffffffffc7634d81f4372ddf581a0db248b0a77aecec196accc52973

/-- a to the power e modulo m, for an exponent below 2^k. -/
def powMod (a e m : Nat) : Nat → Nat
  | 0 => 1
  | k + 1 => let h := powMod a (e / 2) m k; let q := h * h % m; if e % 2 = 1 then q * a % m else q

/-- A point in Jacobian coordinates; Z = 0 is the point at infinity. -/
structure JPoint where
  x : Nat
  y : Nat
  z : Nat
  deriving DecidableEq, Repr

/-- a − b in the field. -/
def fsub (a b : Nat) : Nat := (a + p384p - b % p384p) % p384p

/-- A point doubled (a = −3). -/
def JPoint.dbl (q : JPoint) : JPoint :=
  let d := q.z * q.z % p384p
  let g := q.y * q.y % p384p
  let b := q.x * g % p384p
  let a := 3 * fsub q.x d * (q.x + d) % p384p
  let x := fsub (a * a) (8 * b)
  { x := x, y := fsub (a * fsub (4 * b) x) (8 * g * g), z := 2 * q.y * q.z % p384p }

/-- The sum of two points. -/
def JPoint.add (q r : JPoint) : JPoint :=
  if q.z = 0 then r
  else if r.z = 0 then q
  else
    let a := q.z * q.z % p384p
    let b := r.z * r.z % p384p
    let u := q.x * b % p384p
    let v := r.x * a % p384p
    let s := q.y * b % p384p * r.z % p384p
    let t := r.y * a % p384p * q.z % p384p
    if u = v then (if s = t then q.dbl else { x := 1, y := 1, z := 0 })
    else
      let h := fsub v u
      let w := fsub t s
      let h2 := h * h % p384p
      let h3 := h2 * h % p384p
      let m := u * h2 % p384p
      let x := fsub (w * w) (h3 + 2 * m)
      { x := x, y := fsub (w * fsub m x) (s * h3), z := q.z * r.z % p384p * h % p384p }

/-- A multiple of a point, for a factor below 2^k. -/
def JPoint.mul (q : JPoint) (n : Nat) : Nat → JPoint
  | 0 => { x := 1, y := 1, z := 0 }
  | k + 1 => let h := (q.mul (n / 2) k).dbl; if n % 2 = 1 then h.add q else h

/-- The signature r, s of 48 octets each is one of the message under the key, an uncompressed point of 97 octets. (PRESUMED, log 48) -/
def ecdsaOk (key msg sig : List Byte) : Bool :=
  let x := beNat key 1 48
  let y := beNat key 49 48
  let r := beNat sig 0 48
  let s := beNat sig 48 48
  let onCurve := decide (key.length = 97) && decide (key.head? = some 4#8) && decide (x < p384p) && decide (y < p384p) &&
    decide (y * y % p384p = (x * x * x + (p384p - 3) * x + p384b) % p384p)
  if !onCurve || decide (sig.length ≠ 96) || decide (r = 0) || decide (p384n ≤ r) || decide (s = 0) || decide (p384n ≤ s) then false
  else
    let e := beNat (sha384 msg) 0 48
    let w := powMod s (p384n - 2) p384n 384
    let g : JPoint := { x := p384g.1, y := p384g.2, z := 1 }
    let k : JPoint := { x := x, y := y, z := 1 }
    let q := (g.mul (e * w % p384n) 384).add (k.mul (r * w % p384n) 384)
    decide (q.z ≠ 0) && decide (q.x * powMod (q.z * q.z % p384p) (p384p - 2) p384p 384 % p384p % p384n = r)

/-! ### AES (R234: FIPS 197) -/

/-- The substitution box. -/
def aesBox : List Byte :=
  [0x63#8, 0x7c#8, 0x77#8, 0x7b#8, 0xf2#8, 0x6b#8, 0x6f#8, 0xc5#8, 0x30#8, 0x01#8, 0x67#8, 0x2b#8, 0xfe#8, 0xd7#8, 0xab#8, 0x76#8] ++
  [0xca#8, 0x82#8, 0xc9#8, 0x7d#8, 0xfa#8, 0x59#8, 0x47#8, 0xf0#8, 0xad#8, 0xd4#8, 0xa2#8, 0xaf#8, 0x9c#8, 0xa4#8, 0x72#8, 0xc0#8] ++
  [0xb7#8, 0xfd#8, 0x93#8, 0x26#8, 0x36#8, 0x3f#8, 0xf7#8, 0xcc#8, 0x34#8, 0xa5#8, 0xe5#8, 0xf1#8, 0x71#8, 0xd8#8, 0x31#8, 0x15#8] ++
  [0x04#8, 0xc7#8, 0x23#8, 0xc3#8, 0x18#8, 0x96#8, 0x05#8, 0x9a#8, 0x07#8, 0x12#8, 0x80#8, 0xe2#8, 0xeb#8, 0x27#8, 0xb2#8, 0x75#8] ++
  [0x09#8, 0x83#8, 0x2c#8, 0x1a#8, 0x1b#8, 0x6e#8, 0x5a#8, 0xa0#8, 0x52#8, 0x3b#8, 0xd6#8, 0xb3#8, 0x29#8, 0xe3#8, 0x2f#8, 0x84#8] ++
  [0x53#8, 0xd1#8, 0x00#8, 0xed#8, 0x20#8, 0xfc#8, 0xb1#8, 0x5b#8, 0x6a#8, 0xcb#8, 0xbe#8, 0x39#8, 0x4a#8, 0x4c#8, 0x58#8, 0xcf#8] ++
  [0xd0#8, 0xef#8, 0xaa#8, 0xfb#8, 0x43#8, 0x4d#8, 0x33#8, 0x85#8, 0x45#8, 0xf9#8, 0x02#8, 0x7f#8, 0x50#8, 0x3c#8, 0x9f#8, 0xa8#8] ++
  [0x51#8, 0xa3#8, 0x40#8, 0x8f#8, 0x92#8, 0x9d#8, 0x38#8, 0xf5#8, 0xbc#8, 0xb6#8, 0xda#8, 0x21#8, 0x10#8, 0xff#8, 0xf3#8, 0xd2#8] ++
  [0xcd#8, 0x0c#8, 0x13#8, 0xec#8, 0x5f#8, 0x97#8, 0x44#8, 0x17#8, 0xc4#8, 0xa7#8, 0x7e#8, 0x3d#8, 0x64#8, 0x5d#8, 0x19#8, 0x73#8] ++
  [0x60#8, 0x81#8, 0x4f#8, 0xdc#8, 0x22#8, 0x2a#8, 0x90#8, 0x88#8, 0x46#8, 0xee#8, 0xb8#8, 0x14#8, 0xde#8, 0x5e#8, 0x0b#8, 0xdb#8] ++
  [0xe0#8, 0x32#8, 0x3a#8, 0x0a#8, 0x49#8, 0x06#8, 0x24#8, 0x5c#8, 0xc2#8, 0xd3#8, 0xac#8, 0x62#8, 0x91#8, 0x95#8, 0xe4#8, 0x79#8] ++
  [0xe7#8, 0xc8#8, 0x37#8, 0x6d#8, 0x8d#8, 0xd5#8, 0x4e#8, 0xa9#8, 0x6c#8, 0x56#8, 0xf4#8, 0xea#8, 0x65#8, 0x7a#8, 0xae#8, 0x08#8] ++
  [0xba#8, 0x78#8, 0x25#8, 0x2e#8, 0x1c#8, 0xa6#8, 0xb4#8, 0xc6#8, 0xe8#8, 0xdd#8, 0x74#8, 0x1f#8, 0x4b#8, 0xbd#8, 0x8b#8, 0x8a#8] ++
  [0x70#8, 0x3e#8, 0xb5#8, 0x66#8, 0x48#8, 0x03#8, 0xf6#8, 0x0e#8, 0x61#8, 0x35#8, 0x57#8, 0xb9#8, 0x86#8, 0xc1#8, 0x1d#8, 0x9e#8] ++
  [0xe1#8, 0xf8#8, 0x98#8, 0x11#8, 0x69#8, 0xd9#8, 0x8e#8, 0x94#8, 0x9b#8, 0x1e#8, 0x87#8, 0xe9#8, 0xce#8, 0x55#8, 0x28#8, 0xdf#8] ++
  [0x8c#8, 0xa1#8, 0x89#8, 0x0d#8, 0xbf#8, 0xe6#8, 0x42#8, 0x68#8, 0x41#8, 0x99#8, 0x2d#8, 0x0f#8, 0xb0#8, 0x54#8, 0xbb#8, 0x16#8]

/-- An octet substituted. -/
def aesSub (b : Byte) : Byte := aesBox.getD b.toNat 0#8

/-- An octet times x in the field. -/
def aesX (b : Byte) : Byte := if b.getLsbD 7 then (b <<< 1) ^^^ 0x1b#8 else b <<< 1

/-- Octets exclusive-ored one by one, as long as the shorter. -/
def xorOctets (a b : List Byte) : List Byte := List.zipWith (fun x y => x ^^^ y) a b

/-- The key schedule, newest word first, for a key of nk words: k more words, the next of number i. -/
def aesSchedule (nk : Nat) (rcon : Byte) (i : Nat) (w : List (List Byte)) : Nat → List (List Byte)
  | 0 => w
  | k + 1 =>
    let t := w.getD 0 []
    let old := w.getD (nk - 1) []
    if i % nk = 0 then aesSchedule nk (aesX rcon) (i + 1) (xorOctets old (xorOctets ((t.drop 1 ++ t.take 1).map aesSub) [rcon, 0#8, 0#8, 0#8]) :: w) k
    else if nk = 8 ∧ i % nk = 4 then aesSchedule nk rcon (i + 1) (xorOctets old (t.map aesSub) :: w) k
    else aesSchedule nk rcon (i + 1) (xorOctets old t :: w) k

/-- The round keys of a key of 16 or 32 octets. -/
def aesKeys (key : List Byte) : List (List Byte) :=
  let nk := key.length / 4
  let w0 := ((List.range nk).map fun i => (key.drop (4 * i)).take 4).reverse
  let w := (aesSchedule nk 1#8 nk w0 (4 * (nk + 7) - nk)).reverse
  (List.range (nk + 7)).map fun r => ((w.drop (4 * r)).take 4).flatten

/-- One column mixed. -/
def aesMix (c : List Byte) : List Byte :=
  match c with
  | [a, b, c, d] => [aesX a ^^^ aesX b ^^^ b ^^^ c ^^^ d, a ^^^ aesX b ^^^ aesX c ^^^ c ^^^ d, a ^^^ b ^^^ aesX c ^^^ aesX d ^^^ d,
      aesX a ^^^ a ^^^ b ^^^ c ^^^ aesX d]
  | l => l

/-- The rows shifted. -/
def aesShift (s : List Byte) : List Byte := (List.range 16).map fun i => s.getD ((i + 4 * (i % 4)) % 16) 0#8

/-- The rounds after the first key: all but the last mix the columns. -/
def aesRounds (s : List Byte) : List (List Byte) → List Byte
  | [] => s
  | [k] => xorOctets (aesShift (s.map aesSub)) k
  | k :: ks =>
    let t := aesShift (s.map aesSub)
    aesRounds (xorOctets (aesMix (t.take 4) ++ aesMix ((t.drop 4).take 4) ++ aesMix ((t.drop 8).take 4) ++ aesMix (t.drop 12)) k) ks

/-- One block of 16 octets encrypted under round keys. (PRESUMED, log 49) -/
def aesBlock (keys : List (List Byte)) (b : List Byte) : List Byte :=
  match keys with
  | [] => b
  | k :: ks => aesRounds (xorOctets b k) ks

/-- A keystream of n octets: the blocks whose counter begins at a value and counts in its low `width` octets. -/
def aesStream (keys : List (List Byte)) (iv : List Byte) (width n : Nat) : List Byte :=
  ((List.range ((n + 15) / 16)).flatMap fun j =>
    aesBlock keys (iv.take (16 - width) ++ beOctets (beNat iv (16 - width) width + j) width)).take n

/-! ### SHA-1 and its message authentication code (RFC 2104) -/

/-- The message schedule, newest word first, extended by k words. -/
def sha1Sched (w : List Long) : Nat → List Long
  | 0 => w
  | k + 1 => sha1Sched ((longAt w 2 ^^^ longAt w 7 ^^^ longAt w 13 ^^^ longAt w 15).rotateLeft 1 :: w) k

/-- Round i on the five working variables. -/
def sha1Round (v : List Long) (x : Nat × Long) : List Long :=
  match v with
  | [a, b, c, d, e] =>
    let f := if x.1 < 20 then ((b &&& c) ^^^ (~~~b &&& d), 0x5a827999#32) else if x.1 < 40 then (b ^^^ c ^^^ d, 0x6ed9eba1#32)
      else if x.1 < 60 then ((b &&& c) ^^^ (b &&& d) ^^^ (c &&& d), 0x8f1bbcdc#32) else (b ^^^ c ^^^ d, 0xca62c1d6#32)
    [a.rotateLeft 5 + f.1 + e + f.2 + x.2, a, b.rotateLeft 30, c, d]
  | _ => v

/-- The blocks of a padded message, in order. -/
def sha1Blocks (m : List Byte) : Nat → List Long
  | 0 => [0x67452301#32, 0xefcdab89#32, 0x98badcfe#32, 0x10325476#32, 0xc3d2e1f0#32]
  | k + 1 =>
    let hv := sha1Blocks m k
    let w := (sha1Sched ((List.range 16).map fun i => beLong m (64 * k + 4 * i)).reverse 64).reverse
    List.zipWith (fun a b => a + b) hv ((List.zip (List.range 80) w).foldl sha1Round hv)

/-- SHA-1 of octets: 20 octets. -/
def sha1 (m : List Byte) : List Byte :=
  let p := sha256Pad m
  (sha1Blocks p (p.length / 64)).flatMap fun x => beOctets x.toNat 4

/-- HMAC-SHA1 under a key of at most 64 octets. (PRESUMED, log 49) -/
def hmacSha1 (key m : List Byte) : List Byte :=
  let k := key ++ List.replicate (64 - key.length) 0#8
  sha1 (k.map (· ^^^ 0x5c#8) ++ sha1 (k.map (· ^^^ 0x36#8) ++ m))

/-! ### GCM (RFC 7714: NIST SP 800-38D) -/

/-- x times y, by the bits of x from the highest: `n` of them left. -/
def gcmMulBits (x y z : BitVec 128) : Nat → BitVec 128
  | 0 => z
  | n + 1 =>
    gcmMulBits x (if y.getLsbD 0 then (y >>> 1) ^^^ 0xe1000000000000000000000000000000#128 else y >>> 1) (if x.getLsbD n then z ^^^ y else z) n

/-- Octets with zeros up to whole blocks. -/
def gcmPad (m : List Byte) : List Byte := m ++ List.replicate ((16 - m.length % 16) % 16) 0#8

/-- GHASH of whole blocks under h. -/
def ghash (h : BitVec 128) (m : List Byte) : BitVec 128 :=
  (List.range (m.length / 16)).foldl (fun y i => gcmMulBits (y ^^^ BitVec.ofNat 128 (beNat m (16 * i) 16)) h 0#128 128) 0#128

/-- The tag of a ciphertext with its additional data, under an initial value of 12 octets. (PRESUMED, log 49) -/
def gcmTag (keys : List (List Byte)) (iv aad c : List Byte) : List Byte :=
  let h := BitVec.ofNat 128 (beNat (aesBlock keys (List.replicate 16 0#8)) 0 16)
  let g := ghash h (gcmPad aad ++ gcmPad c ++ beOctets (8 * aad.length) 8 ++ beOctets (8 * c.length) 8)
  xorOctets (beOctets g.toNat 16) (aesBlock keys (iv ++ [0#8, 0#8, 0#8, 1#8]))

/-- Octets encrypted or decrypted in counter mode as GCM does. -/
def gcmCrypt (keys : List (List Byte)) (iv m : List Byte) : List Byte :=
  xorOctets m (aesStream keys (iv ++ [0#8, 0#8, 0#8, 2#8]) 4 m.length)

/-! ### SRTP and SRTCP packets (R234, R235: RFC 3711, RFC 6188, RFC 7714) -/

/-- The suite is one of AEAD. (PRESUMED, log 49) -/
def isAead (suite : Nat) : Bool := decide (4 ≤ suite)

/-- A session key of n octets, at a derivation rate of 0: the label at octet 7 of the master salt, brought to 14 octets. (PRESUMED, log 49) -/
def sessionKey (key salt : List Byte) (label : Byte) (n : Nat) : List Byte :=
  let s := (salt ++ List.replicate 14 0#8).take 14
  aesStream (aesKeys key) (s.set 7 (s.getD 7 0#8 ^^^ label) ++ [0#8, 0#8]) 2 n

/-- Where the part of a packet that is encrypted begins: past the RTP header, its CSRCs and its extension; at octet 8 of SRTCP. -/
def cryptStart (rtcp : Bool) (p : List Byte) : Nat :=
  if rtcp then 8
  else
    let b := (p.getD 0 0#8).toNat
    let a := 12 + 4 * (b % 16)
    min p.length (if b / 16 % 2 = 1 then a + 4 + 4 * beNat p (a + 2) 2 else a)

/-- The initial value of a packet: its SSRC and index exclusive-ored into the session salt. -/
def packetIv (suite : Nat) (salt : List Byte) (rtcp : Bool) (index : Nat) (p : List Byte) : List Byte :=
  let ssrc := beOctets (beNat p (if rtcp then 4 else 8) 4) 4
  if isAead suite then xorOctets salt ([0#8, 0#8] ++ ssrc ++ beOctets index 6)
  else xorOctets salt (List.replicate 4 0#8 ++ ssrc ++ beOctets index 6) ++ [0#8, 0#8]

/-- Octets encrypted or decrypted as a suite does. -/
def srtpCrypt (suite : Nat) (keys : List (List Byte)) (iv m : List Byte) : List Byte :=
  if isAead suite then gcmCrypt keys iv m else xorOctets m (aesStream keys iv 2 m.length)

/-- The session keys of a master key: round keys of the encryption key, authentication key, salt. -/
def sessionKeys (suite : Nat) (key salt : List Byte) (rtcp : Bool) : List (List Byte) × List Byte × List Byte :=
  let l := if rtcp then 3#8 else 0#8
  (aesKeys (sessionKey key salt l key.length), sessionKey key salt (l + 1#8) 20, sessionKey key salt (l + 2#8) (if isAead suite then 12 else 14))

/-- The word after an SRTCP packet: E and the index. -/
def srtcpWord (e : Bool) (index : Nat) : List Byte := beOctets ((if e then 2 ^ 31 else 0) + index % 2 ^ 31) 4

/-- The authentication tag of n octets of a packet as it crosses the wire, `p` without its SRTCP word and `iv` its initial value. -/
def packetTag (suite : Nat) (ks : List (List Byte) × List Byte × List Byte) (iv : List Byte) (rtcp e : Bool) (index n : Nat) (p : List Byte) : List Byte :=
  let a := cryptStart rtcp p
  let w := if rtcp then srtcpWord e index else []
  if isAead suite then (if e then gcmTag ks.1 iv (p.take a ++ w) (p.drop a) else gcmTag ks.1 iv (p ++ w) []).take n
  else (hmacSha1 ks.2.1 (p ++ if rtcp then w else beOctets (index / 65536) 4)).take n

/-- A clear packet protected under a master key, with a tag of n octets and no MKI. (PRESUMED, log 49) -/
def srtpProtect (suite n : Nat) (key salt : List Byte) (index : Nat) (rtcp : Bool) (p : List Byte) : List Byte :=
  let ks := sessionKeys suite key salt rtcp
  let iv := packetIv suite ks.2.2 rtcp index p
  let a := cryptStart rtcp p
  let c := p.take a ++ srtpCrypt suite ks.1 iv (p.drop a)
  let w := if rtcp then srtcpWord true index else []
  let t := packetTag suite ks iv rtcp true index n c
  if isAead suite then c ++ t ++ w else c ++ w ++ t

/-- A protected packet without MKI opened: the clear packet, or none where authentication fails. (PRESUMED, log 49) -/
def srtpOpen (suite n : Nat) (key salt : List Byte) (index : Nat) (rtcp : Bool) (p : List Byte) : Option (List Byte) :=
  let ks := sessionKeys suite key salt rtcp
  let k := if rtcp then 4 else 0
  let c := p.take (p.length - n - k)
  let m := p.length - k
  let w := if isAead suite then p.drop m else (p.drop (m - n)).take k
  let t := if isAead suite then (p.drop (m - n)).take n else p.drop (p.length - n)
  let e := !rtcp || (w.getD 0 0#8).getLsbD 7
  let iv := packetIv suite ks.2.2 rtcp index p
  let a := cryptStart rtcp c
  if p.length < n + k + (if rtcp then 8 else 12) || decide (t ≠ packetTag suite ks iv rtcp e index n c) then none
  else some (if e then c.take a ++ srtpCrypt suite ks.1 iv (c.drop a) else c)

end Sys2Proof.Machine
end

