-- ==== Sys2Proof/Machine/Image.lean ====
section
/-! DEFINITION. The configuration flash and what an image holds (R422 to R430), the pieces in service (R427 to R429), and the
journal's recovery (R446, R447). -/
namespace Sys2Proof.Machine

/-! ### Flash -/

/-- Units of 4 KiB in a slot (R423). -/
def slotUnits4k : Nat := min 24576 ((Config.flashSize - 0x400000) / 2 / 4096)

/-- A unit of a slot; an erased unit reads all ones. (PRESUMED, log 69) -/
def State.flashUnit (s : State) (slot u : Nat) : List Byte := tblGet [] s.cf.flash (slot * 65536 + u)

/-- Octets of a slot. -/
def State.slotOctets (s : State) (slot off n : Nat) : List Byte :=
  (List.range n).map fun i => (s.flashUnit slot ((off + i) / 4096)).getD ((off + i) % 4096) 0xFF#8

/-- Words of a slot. -/
def State.slotWords (s : State) (slot off n : Nat) : List Word := octetsWords (s.slotOctets slot (2 * off) (2 * n))

/-- A boot header copy is valid (R424). -/
def hdrValid (h : List Word) : Bool :=
  decide (wordAt h 0 = 0x5659#16) && decide (wordAt h 1 = 1#16) && decide (wordsAt h 8 2 = (crc32c (wordsOctets (h.take 8))).toNat)

/-- The boot header in force and its copy number (R424). (PRESUMED, log 69) -/
def State.bootHdr (s : State) : Option (Nat × List Word) :=
  let a := tblGet [] s.cf.hdr 0
  let b := tblGet [] s.cf.hdr 1
  match hdrValid a, hdrValid b with
  | true, true => if wordsAt b 2 2 > wordsAt a 2 2 then some (1, b) else some (0, a)
  | true, false => some (0, a)
  | false, true => some (1, b)
  | false, false => none

/-- The boot header changed (R424): the other copy written with HSEQ one higher; with no valid copy, copy 0. -/
def State.writeHdr (s : State) (f : List Word → List Word) : State :=
  let cur := s.bootHdr
  let old := match cur with | some (_, h) => h | none => [0x5659#16, 1#16] ++ List.replicate 8 0#16
  let copy := match cur with | some (c, _) => 1 - c | none => 0
  let seq := toWords ((wordsAt old 2 2 + 1) % 2 ^ 32) 2
  let body := (([0x5659#16, 1#16] ++ seq ++ (f old).drop 4).take 8)
  { s with cf := { s.cf with hdr := tblSet [] s.cf.hdr copy (body ++ toWords (crc32c (wordsOctets body)).toNat 2) } }

/-! ### Images -/

/-- Directory entry i of the image in a slot, with its piece's octets (R425). -/
def State.pieceAt (s : State) (slot i : Nat) : Piece :=
  let e := s.slotWords slot (64 + 32 * i) 32
  { kind := fld (wordAt e 0) 8 8, index := fld (wordAt e 0) 0 8, pver := wordAt e 1, serial := wordsAt e 6 2, digest := e.drop 8
    octets := s.slotOctets slot (wordsAt e 2 2 * 4096) (wordsAt e 4 2) }

/-- PIECES of the image in a slot. -/
def State.imagePieces (s : State) (slot : Nat) : List Piece :=
  let h := s.slotWords slot 0 64
  (List.range (wordAt h 6).toNat).map fun i => s.pieceAt slot i

/-- The device's serial number, bits 31:0 (R427). -/
def serialL : Nat := (Config.fuse 0).toNat + 65536 * (Config.fuse 1).toNat

/-- A kind whose pieces are per device (R427). -/
def perDevice (k : Nat) : Bool := decide (k = 6) || decide (k = 8)

/-- The pieces of the image this device uses (R427). -/
def State.imageUses (s : State) (slot : Nat) : List Piece :=
  let l := s.imagePieces slot
  let own := fun (k : Nat) => (l.find? fun p => decide (p.kind = k) && decide (p.serial = serialL)).or
    (l.find? fun p => decide (p.kind = k) && decide (p.serial = 0))
  (l.filter fun p => !perDevice p.kind) ++ ([6, 8].filterMap own)

/-- A piece matches its DIGEST (R426). -/
def Piece.ok (p : Piece) : Bool := decide (octetsWords (sha384 p.octets) = p.digest)

/-- The SVN of the image in a slot. -/
def State.imageSvn (s : State) (slot : Nat) : Nat := (wordAt (s.slotWords slot 0 64) 3).toNat

/-- The fused SVN minimum, as raised (R426, R439). -/
def State.svnMin (s : State) : Nat := max (Config.fuse 5).toNat s.cf.svn

/-- The hash of the key an image is to be signed with (R426): the fuses', or the evaluation key's where they are unprogrammed. -/
def signerHash : List Byte := if Config.keyFused then Config.fuseKeyHash else Config.evalKeyHash

/-- An image verifies, its SVN apart (R425 to R427). (PRESUMED, log 48) -/
def State.imageOk (s : State) (slot : Nat) : Bool :=
  let h := s.slotWords slot 0 64
  let n := (wordAt h 6).toNat
  decide (wordAt h 0 = 0x4C56#16) && decide (wordAt h 1 = 1#16) && decide (wordsAt h 4 2 ≤ slotUnits4k) && decide (1 ≤ n) && decide (n ≤ 64) &&
    (let signer := s.slotOctets slot 16 97
     decide (sha384 signer = signerHash) && ecdsaOk signer (s.slotOctets slot 0 (128 + 64 * n)) (s.slotOctets slot (128 + 64 * n) 96)) &&
    (let uses := s.imageUses slot
     ([1, 2, 3, 5, 6, 7, 8].all fun k => uses.any fun p => decide (p.kind = k)) && uses.all Piece.ok)

/-- verify(slot) (R426). -/
def State.verifySlot (s : State) (slot : Nat) : Bool := s.imageOk slot && decide (s.svnMin ≤ s.imageSvn slot)

/-- The slot the device started from. -/
def State.bootSlot (s : State) : Nat := fld (s.reg 0x030000) 9 1

/-! ### Pieces in service -/

/-- A register the image sets (R429, R441), entered in the journal where it has a J field (R443). (DESIGN CHOICE, log 46) -/
def State.imageSet (s : State) (o : Origin) (j : Bool) (off : Nat) (w : Word) : State :=
  let old := s.reg off
  let s := s.setReg off w
  if j then s.journal { origin := o, target := .csr off, old := old, new := w } else s

/-- A register the image sets: a reserved encoding has no effect and is refused as a write of it is (R9). -/
def State.imageReg (s : State) (o : Origin) (j : Bool) (off : Nat) (w : Word) : State :=
  if s.legal off w then s.imageSet o j off w
  else if j then s.journal { origin := o, target := .csr off, old := s.reg off, new := w, status := .badArgument, detail := 0x58 }
  else s

/-- Fields a piece gives, 16 bits each. (DESIGN CHOICE, log 46) -/
def pieceWord (octets : List Byte) (k : Nat) : Word := BitVec.ofNat 16 (Config.pieceField octets k)

/-- What the pieces of one kind set (R429). `start` is false for an activation while running, which leaves initial values be. (DESIGN CHOICE, log 46) -/
def State.applyPiece (s : State) (o : Origin) (kind : Nat) (octets : List Byte) (start : Bool) : State :=
  let f := pieceWord octets
  match kind with
  | 1 =>
    let s := s.imageReg o true 0x080000 (f 0 &&& 0x000F#16)
    let s := s.imageReg o true 0x0C0004 (putFld (s.reg 0x0C0004) 0 7 (f 1).toNat)
    let s := s.imageReg o true 0x0C0005 (f 2)
    let s := (s.imageReg o false 0x020004 (f 3)).imageReg o false 0x020005 (f 4)
    let s := s.imageReg o false 0x0F0000 (putFld (s.reg 0x0F0000) 5 1 (f 8).toNat)
    { s with cf := { s.cf with macs := (List.range 8).foldl (fun t p => tblSet 0 t p (Config.pieceField octets (30 + p) % 2 ^ 48)) [] } }
  | 5 =>
    let at_ := fun k => Config.pieceField octets k
    let ctl := (List.range (at_ 0)).map fun i =>
      ({ port := at_ (16 + 4 * i) % 65536, addr := if at_ (17 + 4 * i) = 0 then none else some (at_ (18 + 4 * i)), inst := at_ (19 + 4 * i) % 512 } : CtlPort)
    { s with cf := { s.cf with ctl := ctl, mcast := (List.range (at_ 1)).map fun i => at_ (65536 + i) % 2 ^ 48 } }
  | 6 =>
    if start then (List.range 4).foldl (fun s n =>
      (s.imageReg o true (anaBase n) (f (8 + n) &&& 0xFC00#16)).imageReg o true (anaBase n + 1) (f (16 + n) &&& 0x07FF#16)) s
    else s
  | 7 =>
    let s := (s.imageReg o false 0x02000A (f 0 &&& 0x001F#16)).imageReg o true 0x108000 (f 1 &&& 0x00FF#16)
    if start then (s.imageSet o true 0x0C0004 (putFld (s.reg 0x0C0004) 15 1 (f 2).toNat)).imageReg o true 0x020002 (f 3 &&& 0xFCFF#16) else s
  | _ => s

/-- The pair digest (R428). -/
def State.pairDigest (s : State) : List Word :=
  let kinds := [2, 3, 4, 5, 7]
  sha256First8 ((s.cf.active.filter fun a => kinds.contains (a.1 / 64)).flatMap fun a =>
    [BitVec.ofNat 8 (a.1 / 64), BitVec.ofNat 8 (a.1 % 64)] ++ wordsOctets [a.2.pver] ++ wordsOctets a.2.digest)

/-- CF_PAIR_DIGEST shows the pieces in service; LIVE_MIXED while they come from both slots (R428, R438). -/
def State.piecesChanged (s : State) : State :=
  let slots := s.cf.active.map fun a => a.2.slot
  let mixed := slots.contains 0 && slots.contains 1
  (s.setRegs 0x030004 s.pairDigest).putBit 0x030000 10 mixed

/-- A piece in service from a slot. (DESIGN CHOICE, log 46; DEDUCED, log 87) -/
def State.setPiece (s : State) (p : Piece) (slot : Nat) : State :=
  let key := p.kind * 64 + p.index % 64
  let a : Active := { pver := p.pver, digest := p.digest, octets := p.octets, slot := slot
                      fields := (List.range 64).map (Config.pieceField p.octets) }
  { s with cf := { s.cf with active := tblInsert (tblDrop s.cf.active key) key a } }

/-- PARAMS and STEWARD_FW stand in each active pair's memory (R431). (DESIGN CHOICE, log 46) -/
def State.placeFirmware (s : State) (kind : Nat) (octets : List Byte) : State :=
  if kind = 1 ∨ kind = 2 then
    s.activePairs.foldl (fun s p => s.placePiece (bankWords (192 + 2 * p)).1 0x40000 (if kind = 1 then 18 else 2) octets) s
  else s

/-- The pieces of the given kinds loaded from the slot started (R431, R433); one that fails its digest is journaled and left
out (R426). One whose copy a wake finds in place is not loaded again: the registers lost in Night take its values, those of the Night
Porter, which CALIBRATION sets, keep theirs. (DEDUCED, log 85; DESIGN CHOICE, log 201) -/
def State.loadPieces (s : State) (kinds : List Nat) : State :=
  let slot := s.bootSlot
  (s.imageUses slot).foldl (fun s p =>
    if kinds.contains p.kind then
      match tblFind s.cf.active (p.kind * 64 + p.index % 64) with
      | some a => s.applyPiece .boot p.kind a.octets (p.kind != 6)
      | none =>
        if p.ok then ((s.setPiece p slot).applyPiece .boot p.kind p.octets true).placeFirmware p.kind p.octets
        else s.journal { origin := .boot, target := .event 7 0, old := BitVec.ofNat 16 p.kind, new := BitVec.ofNat 16 p.index }
    else s) s

/-! ### The journal region (R446, R447) -/

/-- Places of the journal region: 62 sectors of 2,048 entries (R423). -/
def norPlaces : Nat := 126976

/-- The sequence number of an entry. -/
def entrySeq (e : List Word) : Nat := wordsAt e 0 2

/-- The entry at place p follows the one before it in the chain (R445). -/
def State.norLinked (s : State) (p : Nat) : Bool :=
  match tblFind s.jr.nor p, tblFind s.jr.nor ((p + norPlaces - 1) % norPlaces) with
  | some e, some q => decide (e.drop 12 = linkOf q) && decide (entrySeq e = (entrySeq q + 1) % 2 ^ 32)
  | _, _ => false

/-- The place of the newest entry whose LINK its predecessor confirms: the last before the write point. (DEDUCED, log 86) -/
def State.norNewest (s : State) : Option Nat :=
  let age := fun p => (s.jr.norWp + norPlaces - 1 - p) % norPlaces
  (s.jr.nor.filter fun x => s.norLinked x.1).foldl (fun best x =>
    match best with
    | none => some x.1
    | some b => if age x.1 < age b then some x.1 else some b) none

/-- The journal recovered at start (R447). (DEDUCED, log 86) -/
def State.journalRecover (s : State) : State :=
  let s := s.setBit 0x038000 15
  match s.norNewest with
  | some p =>
    let e := tblGet [] s.jr.nor p
    let q := entrySeq e
    let s := (s.setRegs 0x038002 (toWords q 2)).setRegs 0x038004 (toWords q 2)
    { s with jr := { s.jr with jring := [e], jseq := (q + 1) % 2 ^ 32, norWp := (p + 1) % norPlaces } }
  | none => s.chainReset

/-- NOR_WRITE (R446, R450): the oldest entry of the ring not yet written goes to the write point, the sector before it erased
first; a failed write or erase sets NOR_ERR and requests JRNL. -/
def norWrite (ok : Bool) (s : State) : State :=
  let b := s.backlog
  if b = 0 ∨ !s.bit 0x038000 15 then s
  else if !ok then (s.setBit 0x038001 1).stewardLine 12
  else
    match s.jr.jring[b - 1]? with
    | none => s
    | some e =>
      let wp := s.jr.norWp
      let nor := if wp % 2048 = 0 then s.jr.nor.filter fun x => x.1 / 2048 != wp / 2048 else s.jr.nor
      let s := { s with jr := { s.jr with nor := tblSet [] nor wp e, norWp := (wp + 1) % norPlaces } }
      let s := s.setRegs 0x038004 (toWords (entrySeq e) 2)
      s.setReg 0x038000 (putFld (s.reg 0x038000) 0 15 (b - 1))

end Sys2Proof.Machine
end

