-- ==== Sys2Proof/Machine/PowerCmds.lean ====
section
/-! DEFINITION. The pace governor (R395 to R405), frame power-up and recalibration (R397, R407), the Night Porter: thermal trip,
brown-out, always-on power-up, retention and wake (R404, R412 to R421, R493). -/
namespace Sys2Proof.Machine

/-! ### Governor -/

/-- A stage entered, journaled (R442). -/
def State.setStage (s : State) (n : Nat) : State :=
  let old := s.reg 0x020000
  let s := s.setReg 0x020000 (putFld old 14 2 n)
  let s := { s with pw := { s.pw with stageAt := s.time } }
  s.journal { origin := .self, target := .csr 0x020000, old := old, new := s.reg 0x020000 }

/-- An event of PG_EVT that also requests PACE. -/
def State.paceEvent (s : State) (bit : Nat) : State := (s.setBit 0x020001 bit).stewardLine 11

/-- Empty frames withdrawn and powered down while the device sheds (R402, R409). -/
def State.withdrawSpares (s : State) : State :=
  ((List.range 24).foldl (fun s f => if frameOn s f && decide ((s.frameAt f).st = 2) && !(s.frameAt f).back then s.frameOff f else s) s).devState

/-- A device that leads asks the Innkeeper to shed, unless it has (R279, R402). -/
def State.askShed (s : State) : State :=
  if s.leads && !s.bit 0x020000 11 then (((s.setBit 0x020001 2).setBit 0x020000 11).setBit 0x0C0000 15).setBit 0x0C0001 5 else s

/-- What the governor does while it is in SHED or YIELD, on entry and at every evaluation after it (R279, R402, R403): it asks for shedding,
withdraws the spare frames, and in YIELD hands over once the twin can take over. -/
def State.shedding (s : State) : State :=
  let st := fld (s.reg 0x020000) 14 2
  let s := if 2 ≤ st then s.askShed.withdrawSpares else s
  if st = 3 then s.startHandover else s

/-- What entering YIELD does beside shedding (R403). -/
def State.enterYield (s : State) : State := (s.setBit 0x020000 12).paceEvent 4

/-- The target pace and the floor as PG_PACE_MIN compares with them: at least p / 10,000 of 1,600 M steps/s. -/
def State.paceAtLeast (s : State) (p : Nat) : Bool := decide (1600 * p ≤ (s.reg 0x020008).toNat * 10000)

/-- The target, in ten-thousandths of the floor (R396). -/
def State.targetPace (s : State) : Nat := 10000 + 100 * fld (s.reg 0x02000A) 0 5

/-- PG_TEMP_MAX in quarter degrees. -/
def State.tempMax (s : State) : Int := (s.reg 0x020009).toInt

/-- The stage whose condition holds (R401). (DEDUCED, log 80) -/
def State.stageDue (s : State) : Nat :=
  let st := fld (s.reg 0x020000) 14 2
  let low := !s.paceAtLeast s.targetPace
  let hot := decide (400 ≤ s.tempMax)
  let shed := (decide (st = 1) && usPassed s.pw.stageAt s.time 1000 && s.bit 0x020000 10) || hot
  let yld := (decide (st = 2) && usPassed s.pw.stageAt s.time 5000 && !s.paceAtLeast 10100) || !s.paceAtLeast 10000 || decide (420 ≤ s.tempMax)
  if yld then 3 else if shed then 2 else if low || hot then 1 else 0

/-- The floor lost or held again (R403). -/
def State.floorCheck (s : State) : State :=
  if s.paceAtLeast 10000 then s.setBit 0x020000 13
  else if s.bit 0x020000 13 then ((s.clrBit 0x020000 13).paceEvent 5).deviceEvent
  else s

/-- The stage evaluated (R401 to R403, R405). (DEDUCED, log 80) -/
def State.stageEval (s : State) : State :=
  let s := s.floorCheck
  let st := fld (s.reg 0x020000) 14 2
  let due := s.stageDue
  let calm := s.paceAtLeast s.targetPace && decide (s.tempMax < 400)
  let s := { s with pw := { s.pw with calmAt := if calm then some (s.pw.calmAt.getD s.time) else none } }
  if st < due then
    let s := s.setStage due
    let s := if due = 1 then s.setBit 0x020001 1 else s
    (if due = 3 then s.enterYield else s).shedding
  else
    let s := s.shedding
    match s.pw.calmAt with
    | some t =>
      if st ≠ 0 ∧ usPassed t s.time 100000 = true ∧ (s.reg 0x020003).toNat + 20 ≤ (s.reg 0x020005).toNat then
        let s := s.setStage 0
        let s := ((s.clrBit 0x020000 11).clrBit 0x020000 12).clrBit 0x0C0000 15
        if 2 ≤ st then s.setBit 0x020001 3 else s
      else s
    | none => s

/-- PG_BIAS as a number. -/
def State.bias (s : State) : Int := ((s.reg 0x020006).extractLsb' 0 3).toInt

/-- PG_BIAS written. -/
def State.setBias (s : State) (b : Int) : State := s.setReg 0x020006 (BitVec.ofInt 3 b |>.zeroExtend 16)

/-- A voltage target written on the AVSBus (R398). -/
def State.setVoltage (s : State) (mv : Nat) : State := (s.send (.avs mv)).setReg 0x020003 (BitVec.ofNat 16 mv)

/-- The target one step of 5 mV higher, within the limits (R398, R400). Before any target has been written there is none to change: the
first one written is the lowest. (DESIGN CHOICE, log 79) -/
def targetUp (v vmin vmax : Nat) : Nat := if v = 0 then vmin else min (v + 5) vmax

/-- The one action of a control interval (R398 to R400). A regulator that reports an error leaves the voltage where it is and
counts as at its limit. (DESIGN CHOICE, log 79) -/
def State.controlAction (s : State) (avsOk : Bool) : State :=
  let v := (s.reg 0x020003).toNat
  let vmax := (s.reg 0x020005).toNat
  let vmin := (s.reg 0x020004).toNat
  let asst := fld (s.reg 0x020007) 0 2
  let s := if avsOk then s else s.setBit 0x020001 7
  let low := if fld (s.reg 0x020000) 5 3 = 0 then (0 : Int) else -4
  let s :=
    if !s.paceAtLeast s.targetPace then
      if avsOk ∧ v < vmax then s.setVoltage (targetUp v vmin vmax)
      else if s.bias < 3 then s.setBias (s.bias + 1)
      else if asst < 3 then s.setReg 0x020007 (BitVec.ofNat 16 (asst + 1))
      else s
    else if s.paceAtLeast (s.targetPace * 104 / 100) ∧ s.tempMax < 400 then
      if 0 < asst then s.setReg 0x020007 (BitVec.ofNat 16 (asst - 1))
      else if low < s.bias then s.setBias (s.bias - 1)
      else if avsOk ∧ vmin < v then s.setVoltage (max (v - 5) vmin)
      else s
    else s
  let lim := (!avsOk || decide (vmax ≤ (s.reg 0x020003).toNat)) && decide (3 ≤ s.bias) && decide (fld (s.reg 0x020007) 0 2 = 3)
  s.putBit 0x020000 10 lim

/-- GOVERNOR_INTERVAL (R395, R400, R401): the monitors' reports by frame, the 32 sensors in quarter degrees, and whether the
regulator answers. In Park, with no frame powered, PG_PACE_MIN keeps its value; before the first frame is powered the governor has nothing to
act on. (DESIGN CHOICE, log 8; DESIGN CHOICE, log 78; DESIGN CHOICE, log 79) -/
def execGovernorInterval (paces : List Nat) (temps : List Int) (avsOk : Bool) (s : State) : Result :=
  .next (
    if !usPassed s.pw.intervalAt s.time 100 || !s.regOn 0x020000 then s
    else
      let s := { s with pw := { s.pw with intervalAt := s.time, sensed := true } }
      let on := (List.range 24).filter fun f => frameOn s f
      let rep := fun (f : Nat) => min 65535 (paces.getD f 0)
      let s := (List.range 24).foldl (fun s f => s.setReg (0x020010 + f) (BitVec.ofNat 16 (if frameOn s f then rep f else 0))) s
      let s := (List.range 32).foldl (fun s i => s.setReg (0x020040 + i) (BitVec.ofInt 16 (temps.getD i 0))) s
      let tmax := (List.range 32).foldl (fun m i => max m (temps.getD i 0)) (temps.getD 0 0)
      let s := s.setReg 0x020009 (BitVec.ofInt 16 tmax)
      match on with
      | [] => if s.parked then (s.controlAction avsOk).stageEval else s
      | f :: _ =>
        let lo := on.foldl (fun m g => min m (rep g)) (rep f)
        ((s.setReg 0x020008 (BitVec.ofNat 16 lo)).controlAction avsOk).stageEval)

/-- ANALOGUE_TRIP (R339, R405): comparator n's input is at v. -/
def execAnalogueTrip (n : Fin 4) (v : Int) (s : State) : Result :=
  .next (
    if s.anaEnters n.val v then
      let s := s.anaTrip n.val
      if n.val < 2 ∧ s.regOn 0x020000 = true then (s.setBit 0x020001 6).stageEval else s
    else s)

/-! ### Frames -/

/-- The CALIBRATION piece in service. -/
def State.calibration (s : State) : Option Active :=
  (tblFind s.cf.active (6 * 64)).or ((s.cf.active.find? fun a => decide (a.1 / 64 = 6)).map Prod.snd)

/-- A frame's calibration lies within 5 % of the monitor's stored table (R397, R429): the step rate the CALIBRATION piece gives for the
frame. (DESIGN CHOICE, log 46) -/
def State.calibrated (s : State) (f pace : Nat) : Bool :=
  match s.calibration with
  | some a =>
    let t := a.fields.getD (24 + f) 0
    decide (100 * (max pace t - min pace t) ≤ 5 * t)
  | none => true

/-- FRAME_POWER_UP (R397, R407): self-test, zero-fill, calibration. -/
def execFramePowerUp (f : Fin 24) (x : PowerUp) (s : State) : Result :=
  .next (if (s.frameAt f.val).poweringUp then ((s.frameZero f.val).framePowered f.val (x.selfTest && s.calibrated f.val x.pace)).devState else s)

/-- The next frame in service from f on, in frame-number order. (DEDUCED, log 81) -/
def State.nextInService (s : State) (f : Nat) : Option Nat := ((List.range 24).map fun i => (f + i) % 24).find? fun g => decide ((s.frameAt g).st = 0)

/-- The coaches of a frame all find places elsewhere, each beside those placed before it (R397). -/
def State.allPlaced (s : State) (f : Nat) : Bool :=
  let go := (s.admitted.filter fun x => decide (frameOf x.2.reck = f)).map Prod.fst
  (go.foldl (fun (o : Option State) c => o.bind fun t =>
    (t.place (t.whole (t.coach c)) (some c)).map fun r => t.modCoach c fun k => { k with reck := r })
    (some (s.modFrame f fun x => { x with st := 1 }))).isSome

/-- RECAL_START (R397). (DEDUCED, log 81) -/
def execRecalStart (s : State) : Result :=
  .next (
    let h := fld (s.reg 0x020002) 0 8
    if h = 0 ∨ !s.leads ∨ !usPassed s.pw.recalAt s.time (h * 3600000000) then s
    else
      let s := { s with pw := { s.pw with recalAt := s.time } }
      if (List.range 24).any fun f => (s.frameAt f).recal then s
      else
        match s.nextInService s.pw.recalNext with
        | some f =>
          if s.allPlaced f then
            ({ s with pw := { s.pw with recalNext := (f + 1) % 24 } }.drainRecal f).decide_ (.recal f (s.drainWords f))
          else s
        | none => s)

/-! ### The Night Porter -/

/-- Back to a state of Night out of a wake (R414, R418): the stages powered down again, VCORE_EN low; what Night holds stays. -/
def State.nightAgain (s : State) (w : WakeSt) : State :=
  let t := s.coreLost (s.retained.map Prod.snd) s.pw.dramKept
  { t with
    inst := s.inst, cf := { t.cf with active := s.cf.active }
    pw := { t.pw with wake := w, vcoreEn := false, retAt := s.time } }

/-- THERMAL_TRIP (R404): a sensor at 115 °C or above, in quarter degrees. The core stays off: in Night and in a wake, no alarm brings it back. (DEDUCED, log 200) -/
def execThermalTrip (sensor : Int) (s : State) : Result :=
  .next (
    if sensor < 460 then s
    else
      let up := s.pw.vcoreEn || decide (s.pw.wake ≠ .off)
      let s := s.setBit 0x010400 0
      let s := if up then { s with jr := { s.jr with toJournal := s.jr.toJournal ++ [(4, 0, 1)] } } else s
      if s.pw.vcoreEn then s.coreOff else { s with pw := { s.pw with wake := .off, vcoreAt := none } })

/-- AON_BROWNOUT (R418, R493): in Night the enabled slots are lost and Night goes on, VCORE_EN low and the device fenced as they are; a wake
in progress falls back to Night; else the core goes off. (DEDUCED, log 200) -/
def execAonBrownout (s : State) : Result :=
  .next (
    let s := s.setBit 0x010400 2
    match s.pw.wake with
    | .awake => s.coreOff
    | .off => s.coreOff
    | .night => s.slotsLost.fence
    | .retry _ => s.slotsLost.fence.nightAgain .night
    | .stage _ => s.slotsLost.fence.nightAgain .night)

/-- AON_POWER_UP (R322, R418, R434, R493): the always-on domain starts from its reset values, 2 ms before VCORE_EN rises; the flash and the fuses
keep theirs, and what the next start is to journal stays. -/
def execAonPowerUp (s : State) : Result :=
  .next { State.reset with
    pending := s.pending, fv := s.fv, out := s.out
    jr := { nor := s.jr.nor, norWp := s.jr.norWp, toJournal := s.noteMixed.jr.toJournal }
    cf := { hdr := s.cf.hdr, flash := s.cf.flash, svn := s.cf.svn } }

/-- A retained bank is held no longer (R417, R421): its words are lost, unless they are a steward memory that an enabled slot of the
partner's copy still holds. (DESIGN CHOICE, log 9) -/
def State.bankReleased (s : State) (bank : Nat) : State :=
  let w := bankWords bank
  if s.retained.any fun k => decide ((bankWords k.2).1 = w.1) && !s.bit 0x010404 k.1 then s else s.wipe w.1 (w.1 + w.2)

/-- Slots released, highest first, until the prediction at temperature t fits (R417); `n` bounds them. -/
def State.releaseSlots (s : State) (t : Int) : Nat → State
  | 0 => s
  | n + 1 =>
    if s.drawFor t ≤ 20000 then s
    else
      match s.slotsOn.getLast? with
      | none => s
      | some k =>
        let bank := fld (s.reg (0x010410 + k)) 0 8
        let s := ((s.clrBit (0x010410 + k) 15).setBit 0x010404 k).setBit 0x010400 1
        (s.bankReleased bank).releaseSlots t n

/-- RETENTION_CHECK (R417): every 10 ms in Night, sensor 3 at t quarter degrees. -/
def execRetentionCheck (t : Int) (s : State) : Result :=
  .next (
    if s.pw.wake = .night ∧ usPassed s.pw.retAt s.time 10000 = true then
      { s with pw := { s.pw with retAt := s.time, sensor3 := some t } }.releaseSlots t 16
    else s)

/-- The signature of a bank (R419). -/
def State.bankSig (s : State) (bank : Nat) : Nat := (crc32c (wordsOctets (memWords s.mem (bankWords bank).1 (bankWords bank).2))).toNat

/-- The signatures of every enabled slot stored (R419). -/
def State.signBanks (s : State) : State :=
  s.retained.foldl (fun s k => s.setRegs (0x010420 + 2 * k.1) (toWords (s.bankSig k.2) 2)) s

/-- The slot in use kept for the wake (R433). -/
def State.keepSlot (s : State) : State := { s with cf := { s.cf with nightSlot := fld (s.reg 0x030000) 9 1 } }

/-- An instance over Night (R355): its counters start from 0, its chain continues, its first record is RESTART. (DEDUCED, log 84) -/
def Inst.overNight (i : Inst) : Inst :=
  { i with
    busy := none, behind := [], heldCpl := none, cplFirst := false, late := false, notices := []
    ledger := { seq := i.ledger.seq, prev := i.ledger.prev, nextKind := if i.st = .free then 0 else 4, held := i.ledger.held } }

/-- Night entered (R412, R413, R386): signatures of enabled slots, DRAM in self-refresh or off, the domains down, VCORE_EN low. (DEDUCED, log 84) -/
def State.nightDown (s : State) : State :=
  let s := s.signBanks.keepSlot
  let kept := s.retained.map Prod.snd
  let dram := decide (s.params 7 = 1)
  let insts := s.inst.map fun x => (x.1, x.2.overNight)
  let pieces := s.cf.active
  let t := s.fence.coreLost kept dram
  let s := { t with inst := insts, cf := { t.cf with active := pieces } }
  { s with pw := { s.pw with wake := .night, wakeAt := s.time, vcoreEn := false, dramKept := dram, retAt := s.time } }

/-- The signature of an enabled slot still matches, and the slot was not lost before (R420). -/
def State.slotIntact (s : State) (k : Nat × Nat) : Bool :=
  !s.bit 0x010404 k.1 && decide (s.bankSig k.2 = s.regs (0x010420 + 2 * k.1) 2)

/-- The bank of the other copy of a steward pair's memory. -/
def partnerBank (b : Nat) : Nat := if b % 2 = 0 then b + 1 else b - 1

/-- The pieces a wake finds in place (R433): PARAMS and STEWARD_FW where an intact slot holds each active pair's memory, the others where
DRAM is kept. (DESIGN CHOICE, log 201) -/
def State.keepPieces (s : State) (good : List Nat) : State :=
  let fw := s.activePairs.all fun p => good.contains (192 + 2 * p) || good.contains (193 + 2 * p)
  { s with cf := { s.cf with active := s.cf.active.filter fun a => if a.1 / 64 ≤ 2 then fw else s.pw.dramKept } }

/-- Signatures checked and steward memories repaired from the partner's copy at the end of wake stage 2 (R420, R421): a
bank of which no intact slot holds a copy is zero-filled. Each repair is kept for the start to journal. (DESIGN CHOICE, log 9) -/
def State.checkRetained (s : State) : State :=
  let good := s.retained.filter fun k => s.slotIntact k
  let s := (s.retained.filter fun k => !s.slotIntact k).foldl (fun s k =>
    let s := s.setBit 0x010404 k.1
    let held := good.any fun b => decide ((bankWords b.2).1 = (bankWords k.2).1)
    if held then s else s.wipe (bankWords k.2).1 ((bankWords k.2).1 + (bankWords k.2).2)) s
  let fix := (good.filter fun k => decide (192 ≤ k.2) && !good.any fun b => decide (b.2 = partnerBank k.2)).map fun k => (k.1, partnerBank k.2)
  State.keepPieces { s with pw := { s.pw with repairs := fix } } (good.map Prod.snd)

/-- Domains 24 to 31 on or off, as PG_DOM_ON_1 shows them. -/
def State.mainDomains (s : State) (on : Bool) : State := s.setReg 0x02000C (if on then 0xFF00#16 else 0#16)

/-- Microseconds a wake stage may take (R414). -/
def wakeLimit (n : Nat) : Nat := [10000, 2000, 20000, 50000].getD n 0

/-- WAKE_STAGE_TIMEOUT (R414): stage n has not become ready in its time. -/
def execWakeStageTimeout (n : Fin 4) (s : State) : Result :=
  .next (
    if s.pw.wake ≠ .stage n.val ∨ !usPassed s.pw.wakeAt s.time (wakeLimit n.val) then s
    else
      let s := if 2 ≤ n.val then s.slotsLost else s
      let s := s.setReg 0x010401 (putFld (s.reg 0x010401) 12 2 n.val)
      if s.bit 0x010401 7 then (s.nightAgain .night).setBit 0x010401 14 else s.nightAgain (.retry s.time))

/-- WAKE_RETRY (R414): 100 ms after a failed wake. -/
def execWakeRetry (s : State) : Result :=
  .next (
    match s.pw.wake with
    | .retry t =>
      if usPassed t s.time 100000 then { s.setBit 0x010401 7 with pw := { s.pw with wake := .stage 0, wakeAt := s.time, vcoreEn := true } }
      else s
    | _ => s)

end Sys2Proof.Machine
end

