-- ==== Sys2Proof/Machine/StartCmds.lean ====
section
/-! DEFINITION. Reset and start-up (R430 to R434, R447, R493), the trial watchdog (R432), the journal unit's writes (R446), the
activation of pieces (R437, R438) and the staging erase (R435). -/
namespace Sys2Proof.Machine

/-- A setting of the image's piece of a kind, as it stands in a slot. -/
def State.imageField (s : State) (slot kind k : Nat) : Nat :=
  match (s.imageUses slot).find? fun p => decide (p.kind = kind) with
  | some p => Config.pieceField p.octets k
  | none => 0

/-- The active pairs' stewards start at the image's wake entry (R414). (DEDUCED, log 155) -/
def State.wakeStewards (s : State) : State :=
  let slot := s.cf.nightSlot
  let go := (List.range 4).filter fun p => decide (s.imageField slot 1 20 / 2 ^ p % 2 = 1)
  go.foldl (fun s p => s.startEngine (stewardPair p) (BitVec.ofNat 48 (s.imageField slot 2 1))) { s with pw := { s.pw with wakeKicks := go } }

/-- A wake stage is ready (R414): stage 0 with the core supply above the image's core threshold, stage 3 once every active pair has written
KICK. (DESIGN CHOICE, log 46; DESIGN CHOICE, log 211) -/
def State.wakeReady (s : State) (x : WakeReady) : Bool :=
  match x.stage.val with
  | 0 => decide (s.imageField s.cf.nightSlot 1 17 < x.core)
  | 3 => decide (s.pw.wakeKicks = [])
  | _ => true

/-- WAKE_STAGE_READY (R414, R433, R494): a stage's ready signal; the next stage's action begins. -/
def execWakeStageReady (x : WakeReady) (s : State) : Result :=
  .next (
    if s.pw.wake ≠ .stage x.stage.val ∨ s.wakeReady x = false then s
    else
      let s := { s with pw := { s.pw with wakeAt := s.time } }
      match x.stage.val with
      | 0 => { s with pw := { s.pw with wake := .stage 1 } }
      | 1 =>
        let s := s.mainDomains true
        let fs := noRepeats ((s.retained.filter fun k => decide (k.2 < 192)).map fun k => k.2 / 8)
        let s := fs.foldl (fun s f => s.modFrame f fun x => { x with powered := true }) s
        { s with pw := { s.pw with wake := .stage 2 } }
      | 2 =>
        let s := if x.dramHeld then s else State.wipe { s with pw := { s.pw with dramKept := false } } 0 0x4000000000
        let s := s.checkRetained.wakeStewards
        { s with pw := { s.pw with wake := .stage 3 } }
      | _ =>
        let s := (s.setBit 0x010401 15).setReg 0x030000 (BitVec.ofNat 16 (2 + 512 * s.cf.nightSlot))
        { s with pw := { s.pw with wake := .awake }, cf := { s.cf with startCause := 2, startAt := s.time } })

/-- CF_STATUS.STAGE. -/
def State.stage (s : State) : Nat := fld (s.reg 0x030000) 0 4

/-- The device with STAGE set. -/
def State.setStartStage (s : State) (n : Nat) : State := s.setReg 0x030000 (putFld (s.reg 0x030000) 0 4 n)

/-- The start-up sequence begins (R431). -/
def State.startUp (s : State) (strap : Bool) : State :=
  let s := ((s.mainDomains true).putBit 0x0F0000 6 strap).setStartStage 1
  { s with pw := { s.pw with wake := .awake, twinRole := strap } }

/-- SYS_RESET_N (R322, R367, R431, R492): its release starts the start-up sequence, and the strap is sampled; without the core supply nothing
starts. (DEDUCED, log 200) -/
def execSysResetN (strap : Bool) (s : State) : Result :=
  .next (
    if !s.pw.resetLow then s
    else
      let s := s.unfenced.restarted s.cf.startCause
      let s := { s.clrBit 0x010401 15 with pw := { s.pw with resetLow := false, twinRole := strap } }
      if s.pw.vcoreEn then s.startUp strap else s)

/-- SYS_RESET_N_FALL (R322, R414, R493). -/
def execSysResetNFall (s : State) : Result :=
  .next (
    if s.pw.resetLow then s
    else
      let s := s.unfenced.restarted 1
      { s with pw := { s.pw with resetLow := true, vcoreEn := true, vcoreAt := none } })

/-- Host-ready (R431, R432): CF_STATUS.HOST_READY, once the link can train; PERST_N's release sets it else. (DEDUCED, log 155) -/
def State.linkReady (s : State) : State := if s.fn.perstLow then s else s.setBit 0x030000 14

/-- Recovery (R430): the stewards run the boot ROM's own firmware, and the device is host-ready. -/
def State.enterRecovery (s : State) : State :=
  let s := s.activePairs.foldl (fun s p => s.startEngine (stewardPair p) Config.romEntry) s
  ((s.setBit 0x030000 13).setStartStage 15).linkReady

/-- The slot that R430 tries first, with the header written and TRIAL noted. -/
def State.chooseSlot (s : State) : Nat × State :=
  match s.bootHdr with
  | some (_, h) =>
    let dflt := fld (wordAt h 4) 0 1
    let trial := fld (wordAt h 5) 0 1
    if (wordAt h 5).getLsbD 15 then
      if fld (wordAt h 6) 0 2 < 3 then (trial, (s.writeHdr fun w => w.set 6 (wordAt w 6 + 1#16)).setBit 0x030000 12)
      else
        let s := s.writeHdr fun w => w.set 5 (wordAt w 5 &&& 0x7FFF#16)
        (dflt, { s with jr := { s.jr with toJournal := s.jr.toJournal ++ [(5, trial, dflt)] } })
    else (dflt, s)
  | none => (0, s)

/-- Stage 2 of a start by reset or power-on chooses and verifies the slot (R430); a wake keeps the slot it ran from (R433). -/
def State.imageStage (s : State) : State :=
  let c := s.chooseSlot
  let started := fun (s : State) (slot : Nat) => s.setReg 0x030000 (putFld (s.reg 0x030000) 9 1 slot)
  if c.2.verifySlot c.1 then started c.2 c.1
  else
    let s := (started c.2 (1 - c.1)).setBit 0x030000 11
    if c.2.verifySlot (1 - c.1) then { s with jr := { s.jr with toJournal := s.jr.toJournal ++ [(2, c.1, 1 - c.1)] } }
    else s.enterRecovery

/-- An event kept for the start to journal (R404, R430, R434): MIXED_REVERT names the slot started. (DEDUCED, log 85) -/
def State.keptEntry (s : State) (x : Nat × Nat × Nat) : State :=
  let o := if x.1 = 4 then Origin.self else Origin.boot
  let n := if x.1 = 6 then s.bootSlot else x.2.2
  s.journal { origin := o, target := .event x.1 0, old := BitVec.ofNat 16 x.2.1, new := BitVec.ofNat 16 n }

/-- A steward memory copied from its partner's (R421), entered under the intact slot's register: OLD is what that register holds, NEW the
bank it was copied to. (DESIGN CHOICE, log 202) -/
def State.repairEntry (s : State) (x : Nat × Nat) : State :=
  s.journal { origin := .self, target := .csr (0x010410 + x.1), old := s.reg (0x010410 + x.1), new := BitVec.ofNat 16 x.2 }

/-- The entries a start makes in stage 2, in the order of their effect: a thermal trip, the slot reverted or refused, START, what START
reverts, lost retention slots with the copies that repaired steward memories, a steward checkstop's record (R404, R420, R421, R434, R443,
R444, R452, R464). (DEDUCED, log 85) -/
def State.startEntries (s : State) : State :=
  let before := s.jr.toJournal.filter fun x => decide (x.1 ≠ 6)
  let after := s.jr.toJournal.filter fun x => decide (x.1 = 6)
  let s := before.foldl (fun s x => s.keptEntry x) s
  let s := s.journal { origin := .boot, target := .event 1 0, old := BitVec.ofNat 16 s.bootSlot, new := BitVec.ofNat 16 s.cf.startCause }
  let s := after.foldl (fun s x => s.keptEntry x) s
  let s := ((List.range 16).filter fun k => s.bit 0x010404 k).foldl (fun s k => s.journalBit .self 0x010404 k) s
  let s := s.pw.repairs.foldl (fun s x => s.repairEntry x) { s with pw := { s.pw with repairs := [] } }
  let s := match s.jr.npRecord with | some r => s.putRecord r | none => s
  { s with jr := { s.jr with toJournal := [], npRecord := none } }

/-- Stage 7 of a start (R431): every frame powers up. -/
def State.framesStage (s : State) : State := (List.range 24).foldl (fun s f => s.frameStartUp f) s

/-- Stage 7 of a wake (R408, R414): the frames that kept a retained bank have power and start; the others are left to the policy's rounds. -/
def State.framesWake (s : State) : State :=
  ((List.range 24).foldl (fun s f => if frameOn s f then s.framePowered f true else s) s).devState

/-- MC_CH_INFO of a channel as stage 5 leaves it (R213, R215, R431): trained up to the bin `top`, reserved bits 0, every present channel with
the rows of the first; a channel whose rows are not 14 to 18 is absent. (DESIGN CHOICE, log 176) -/
def channelInfo (x : StartIn) (top c : Nat) : Word :=
  let rows (i : Nat) : Nat := let n := fld (wordAt x.channels i) 0 5; if 14 ≤ n ∧ n ≤ 18 then n else 0
  let first := (((List.range 8).map rows).find? fun n => n != 0).getD 0
  BitVec.ofNat 16 (min (fld (wordAt x.channels c) 12 4) (min top 4) * 4096 + if rows c = 0 then 0 else first)

/-- STARTUP_STAGE (R431, R433): the stage in progress completes and the next proceeds. (DEDUCED, log 155) -/
def execStartupStage (x : StartIn) (s : State) : Result :=
  .next (
    let wake := decide (s.cf.startCause = 2)
    match s.stage with
    | 1 => if x.flashOk then s.setStartStage 2 else s.enterRecovery
    | 2 =>
      let s := if wake then s else s.imageStage
      let s := s.journalRecover.startEntries
      if s.bit 0x030000 13 then s else s.setStartStage 3
    | 3 =>
      let s := ((s.loadPieces [1]).loadPieces [2]).piecesChanged.pairDomains
      let s := selfTestPoints x.silent s
      let s := if wake then s
        else [0, 1, 2, 3].foldl (fun s p => if s.pairActive p then s.startEngine (stewardPair p) (s.kernelEntry 2 0) else s) s
      s.setStartStage 4
    | 4 => s.linkReady.setStartStage 5
    | 5 =>
      let s := (List.range 8).foldl (fun s c => s.setReg (0x100000 + c * 0x1000) (channelInfo x (s.params 16) c)) s
      let keep := wake && s.pw.dramKept
      (if keep then s else s.wipe 0 0x4000000000).setStartStage 6
    | 6 => ((s.loadPieces [3, 4, 5, 6, 7, 8]).piecesChanged).setStartStage 7
    | 7 =>
      let begun := (List.range 24).any fun f => (s.frameAt f).poweringUp || frameOn s f || decide ((s.frameAt f).st = 3)
      let busy := (List.range 24).any fun f => (s.frameAt f).poweringUp
      if wake then s.framesWake.setStartStage 8
      else if !begun then s.framesStage
      else if busy then s
      else s.setStartStage 8
    | 8 =>
      if s.bit 0x030000 15 then s
      else
        let s := selfTestDigest x.digestSilent s
        let s := (s.setBit 0x030000 15).setBit 0x030001 0
        { s with tw := { s.tw with helloAt := s.time }, ik := { s.ik with round := roundOf s.time, grid := curPeriod 1 s.time },
                 ty := { s.ty with minute := minuteOf s.time }, pw := { s.pw with recalAt := s.time } }
    | _ => s)

/-- TRIAL_WATCHDOG (R432): a trial start not service-ready within 3 s restarts the device. -/
def execTrialWatchdog (s : State) : Result :=
  .next (
    if s.bit 0x030000 12 && !s.bit 0x030000 15 && usPassed s.cf.startAt s.time 3000000 then
      let s := s.restarted 3
      s.startUp s.pw.twinRole
    else s)

/-- NOR_WRITE (R446): `ok` is false where the flash write or erase fails. -/
def execNorWrite (ok : Bool) (s : State) : Result := .next (norWrite ok s)

/-! ### Activation of pieces -/

/-- The instant a pending activation has its effect, and the one its command completes at (R437). -/
def State.actDue (s : State) (a : PendAct) : Bool :=
  let t := boundaryOf 1 a.instant
  if a.piece.kind = 2 ∨ a.piece.kind = 7 then decide (t ≤ s.ik.round * 2 ^ 38) else decide (t ≤ s.time)

/-- An activation that has taken effect completes (R437): a MEDIA_LIB once every coach's first boundary from A on has come, a
STEWARD_FW once both active pairs have been exchanged, the others at once. (DEDUCED, log 87) -/
def State.actDone (s : State) (a : PendAct) : Bool :=
  if a.piece.kind = 4 then
    s.admitted.all fun x => decide (boundaryOf x.2.mul (firstPeriodAt x.2.mul (boundaryOf 1 a.instant)) ≤ s.time)
  else if a.piece.kind = 2 then a.taken || decide (s.activePairs.length < 2)
  else true

/-- A standby pair, which holds the new firmware, takes the role of active pair i, which becomes standby (R437): its stewards start at the
image's entry, the others stop. (DEDUCED, log 47; DEDUCED, log 87) -/
def State.exchangePair (s : State) (i : Nat) : State :=
  match s.standbyPairs.head?, s.activePairs[i]? with
  | some q, some p =>
    let s := { s with cf := { s.cf with roles := s.activePairs.set i q } }
    (s.setEng (stewardPair p) {}).startEngine (stewardPair q) (s.kernelEntry 2 0)
  | _, _ => s

/-- An activation's command completes, in ring order (R301, R437): one behind another is ready when those before it are done. -/
def State.activationDone (s : State) (kind index : Nat) : State :=
  let s := s.modInst 0 fun i => { i with
    behind := i.behind.map fun x => if x.2 = some (.activation kind index) then (x.1, none) else x }
  match (s.instAt 0).busy with
  | some b =>
    if b.wait = .activation kind index then s.complete 0 { status := .ok, tag := b.tag, op := b.op, detail := 0, result := b.result } else s
  | none => s

/-- ACTIVATION (R437, R438, R443): the pending activation of that piece takes effect at its instant, after every one of a lower
kind due with it, and completes. (DEDUCED, log 87) -/
def execActivation (kind index : Nat) (s : State) : Result :=
  .next (
    match s.cf.acts.find? fun a => decide (a.piece.kind = kind) && decide (a.piece.index = index) with
    | none => s
    | some a =>
      if !s.actDue a || s.cf.acts.any fun b => !b.taken && s.actDue b && decide (b.piece.kind < kind) then s
      else
        let key := kind * 64 + index % 64
        let s := if a.taken then s
          else
            let old := match tblFind s.cf.active key with | some x => x.pver | none => 0#16
            let s := (s.setPiece a.piece (1 - s.bootSlot)).applyPiece .image kind a.piece.octets false
            let s := if kind = 3 then { s with cf := { s.cf with kernelFrom := boundaryOf 1 a.instant } } else s
            let s := s.piecesChanged.setBit 0x030001 2
            s.journal { origin := .image, target := .piece kind index, old := old, new := a.piece.pver }
        let s := if kind = 2 then s.exchangePair (if a.taken then 1 else 0) else s
        let rest := s.cf.acts.filter fun b => !(decide (b.piece.kind = kind) && decide (b.piece.index = index))
        if s.actDone a then
          State.activationDone { s with cf := { s.cf with acts := rest } } kind index
        else { s with cf := { s.cf with acts := { a with taken := true } :: rest } })

/-- ERASE_COMPLETE (R435, R436): the staging slot is erased, and PIECE_STAGE BEGIN completes; with another outcome on the twin, STAGED is 3. -/
def execEraseComplete (s : State) : Result :=
  .next (
    match s.cf.erasing with
    | none => s
    | some _ =>
      let slot := 1 - s.bootSlot
      let s := { s with cf := { s.cf with erasing := none, flash := s.cf.flash.filter fun x => x.1 / 65536 != slot } }
      match (s.instAt 0).busy with
      | some b =>
        if b.wait ≠ .erase then s
        else if s.cf.eraseSame then s.complete 0 { status := .ok, tag := b.tag, op := b.op, detail := 0, result := 0 }
        else (s.setReg 0x030000 (putFld (s.reg 0x030000) 7 2 3)).complete 0 { status := .stateConflict, tag := b.tag, op := b.op, detail := 0x61, result := 0 }
      | none => s)

end Sys2Proof.Machine
end

