-- ==== Sys2Proof/Machine/ManagerCmds.lean ====
section
/-! DEFINITION. The manager commands (R273 to R276, R291 to R293, R303, R309 to R311, R315, R316, R353, R356, R365, R377, R392, R410,
R411, R435 to R439, R449) and what completes them. -/
namespace Sys2Proof.Machine

/-! ### Instances -/

/-- The shares a create or a change names (R303). -/
def entryShares (e : Entry) : List Nat := [entryArgs e 6 4, entryArgs e 10 4, entryArgs e 14 2, entryArgs e 16 1]

/-- A share field of all ones leaves its value (R303). -/
def allOnes (k : Nat) : Nat := [2 ^ 64 - 1, 2 ^ 64 - 1, 2 ^ 32 - 1, 2 ^ 16 - 1].getD k 0

/-- Share k of an instance, the larger of what it has and what it is to have. -/
def Inst.held (i : Inst) (k : Nat) : Nat :=
  max ([i.shares.steps, i.shares.dram, i.shares.streams, i.shares.boards].getD k 0) ((i.nextShares.getD k none).getD 0)

/-- The pool of share k (R266, R273). -/
def State.pool (s : State) (k : Nat) : Nat :=
  [307200000000 * fld (s.reg 0x0C0004) 0 7 / 100, 43750000000 * ((List.range 8).filter fun c => decide (rowsLog2 s c ≠ 0)).length, 262144, 4096].getD k 0

/-- The sum of every instance's share k, instance n counted at v (R273). -/
def State.poolSum (s : State) (n k v : Nat) : Nat :=
  (s.inst.filter fun x => decide (x.1 ≠ n)).foldl (fun t x => t + x.2.held k) v

/-- A PASID is held by another instance (R292). -/
def State.pasidHeld (s : State) (n p : Nat) : Bool := s.inst.any fun x => decide (x.1 ≠ n) && decide (x.2.st ≠ .free) && decide (x.2.pasid = p)

/-- The PASID an INSTANCE_CREATE names (R303). -/
def entryPasid (e : Entry) : Nat := entryArgs e 3 1 + 65536 * fld (entryArg e 4) 0 4

/-- An instance created, as admitted here or by the twin's primary (R254, R273, R277, R292, R303, R355). -/
def createAs (e : Entry) (s : State) : Ans :=
  let sh := entryShares e
  let limits := [entryArgs e 18 4, entryArgs e 22 2, entryArgs e 24 4]
  let i : Inst :=
    { st := .active, pasid := entryPasid e, vector := (entryArg e 5).toNat
      shares := { steps := sh.getD 0 0, dram := sh.getD 1 0, streams := sh.getD 2 0, boards := sh.getD 3 0 }
      weight := (entryArg e 17).toNat, limits := limits, buckets := limits.map bucketMax, ledger := { nextKind := 1 } }
  Ans.ok ((s.portalReset e.w2.toNat).setInst e.w2.toNat i)

/-- INSTANCE_CREATE (R273, R292, R303). (DESIGN CHOICE, log 93) -/
def createBody (e : Entry) (s : State) : Ans :=
  let n := e.w2.toNat
  let pasid := entryPasid e
  let vec := (entryArg e 5).toNat
  let sh := entryShares e
  if pasid = 0 ∨ fld (entryArg e 4) 4 12 ≠ 0 ∨ vec < 16 ∨ 2047 < vec ∨ entryArg e 17 = 0#16 then Ans.field s
  else if (s.instAt n).st ≠ .free then Ans.no s .stateConflict 0x50
  else if s.pasidHeld n pasid then Ans.no s .stateConflict 0x52
  else if (List.range 4).any fun k => decide (s.pool k < s.poolSum n k (sh.getD k 0)) then Ans.no s .refusedCapacity 0x15
  else createAs e s
/-- INSTANCE_CREATE (R303). -/
def execInstanceCreate (e : Entry) (s : State) : Result := .next (runCmd e 0x01 true (wRange 3 27) (createBody e) s)

/-- A pending change of a share replaced (R275), journaled just before the replacing command's own entry. -/
def State.supersede (s : State) (n k : Nat) (o : Origin) : State :=
  match (s.instAt n).pendShares.find? fun p => decide (p.share = k) with
  | some p =>
    let s := s.modInst n fun i => { i with pendShares := i.pendShares.filter fun q => q.share ≠ k }
    s.journal { origin := o, target := .command 0x02 p.tag, old := BitVec.ofNat 16 n, status := .stateConflict, detail := 0x27 }
  | none => s

/-- A change of a share does not take effect: a reduction below the admitted use (R275). -/
def State.shareWaits (s : State) (n k v : Nat) : Bool :=
  let i := s.instAt n
  decide (v < [i.shares.steps, i.shares.dram, i.shares.streams, i.shares.boards].getD k 0) && decide (v < s.useOf n k)

/-- One share changed (R274, R275): at the next round, or pending. (DEDUCED, log 98) -/
def State.changeShare (s : State) (n k v : Nat) (tag : Word) (waits : Bool) (o : Origin) : State :=
  let s := s.supersede n k o
  if waits then
    s.modInst n fun i => { i with pendShares := i.pendShares ++ [{ share := k, value := v, tag := tag }], nextShares := i.nextShares.set k none }
  else s.modInst n fun i => { i with nextShares := i.nextShares.set k (some v) }

/-- The shares an INSTANCE_SET_SHARE changes (R303). -/
def namedShares (e : Entry) : List Nat := (List.range 4).filter fun k => decide ((entryShares e).getD k 0 ≠ allOnes k)

/-- Shares, weight and limits changed as decided here or by the twin's primary (R254, R274, R275, R303): `waits` says of each share whether
its change waits. -/
def setShareAs (e : Entry) (waits : Nat) (o : Origin) (s : State) : Ans :=
  let n := e.w2.toNat
  let weight := (entryArg e 17).toNat
  let lim := [(entryArgs e 18 4, 2 ^ 64 - 1), (entryArgs e 22 2, 2 ^ 32 - 1), (entryArgs e 24 4, 2 ^ 64 - 1)].map fun x => if x.1 = x.2 then none else some x.1
  let t := (namedShares e).foldl (fun s k => s.changeShare n k ((entryShares e).getD k 0) e.tag (decide (waits / 2 ^ k % 2 = 1)) o) s
  let t := t.modInst n fun i =>
    { i with
      nextWeight := if weight = 65535 then i.nextWeight else some weight
      nextLimits := (List.range 3).map fun k => ((lim.getD k none).or (i.nextLimits.getD k none)) }
  { s := t, st := if waits = 0 then .ok else .pending, effect := some ((s.ik.round + 1) * 2 ^ 38), placed := some (waits, 0) }

/-- INSTANCE_SET_SHARE (R273 to R275, R303). (DEDUCED, log 98) -/
def setShareBody (e : Entry) (s : State) : Ans :=
  let n := e.w2.toNat
  let i := s.instAt n
  let sh := entryShares e
  let named := namedShares e
  let weight := (entryArg e 17).toNat
  if i.st ≠ .active ∧ i.st ≠ .quiesced then Ans.no s .stateConflict (stateDetail i.st)
  else if weight = 0 then Ans.field s
  else if named.any fun k => decide (i.held k < sh.getD k 0) && decide (s.pool k < s.poolSum n k (sh.getD k 0)) then Ans.no s .refusedCapacity 0x15
  else setShareAs e ((named.filter fun k => s.shareWaits n k (sh.getD k 0)).foldl (fun w k => w + 2 ^ k) 0) .manager s
/-- INSTANCE_SET_SHARE (R275). -/
def execInstanceSetShare (e : Entry) (s : State) : Result := .next (runCmd e 0x02 true (wRange 6 27) (setShareBody e) s)

/-- A waiting best-effort job discarded by a quiesce (R276): charged nothing, completed with STATE_CONFLICT, QUIESCING. -/
def State.dropBe (s : State) (j : BeJob) : State :=
  let s := { s with ik := { s.ik with bejobs := s.ik.bejobs.filter fun x => x.id ≠ j.id } }
  match (s.instAt j.inst).busy with
  | some b =>
    if b.wait = .job j.id then s.complete j.inst { status := .stateConflict, tag := b.tag, op := b.op, detail := 0x21, result := 0 } else s
  | none => s

/-- A quiesce begins (R276, R309): no waybill after the periods in progress, waiting best-effort jobs dropped, boards to be
released at the boundary after those periods. (DESIGN CHOICE, log 97) -/
def State.beginQuiesce (s : State) (n : Nat) : State :=
  let late := (s.instAt n).late || (decide ((s.instAt n).st = .active) && s.inExecution n)
  let s := s.modInst n fun i => { i with st := .quiescing, late := late }
  let s := (s.admitted.filter fun x => decide (x.2.inst = n)).foldl (fun s x =>
    s.setCoach x.1 { x.2 with withdrawn := some (curPeriod x.2.mul s.now) }) s
  let s := (s.ik.bejobs.filter fun j => decide (j.inst = n) && j.issued.isNone).foldl (fun s j => s.dropBe j) s
  (s.boards.filter fun b => b.2.valid && decide (b.2.owner = n)).foldl (fun s b =>
    let m := (periodMul b.2.period).getD 1
    { s with ik := { s.ik with releasing := tblInsert (tblDrop s.ik.releasing b.1) b.1 (boundaryOf m (curPeriod m s.now + 1)) } }) s

/-- INSTANCE_QUIESCE (R276, R309). -/
def quiesceBody (e : Entry) (s : State) : Ans :=
  let n := e.w2.toNat
  let st := (s.instAt n).st
  if st ≠ .active ∧ st ≠ .error then Ans.no s .stateConflict (stateDetail st)
  else Ans.later (s.beginQuiesce n) (.quiesce n)
/-- INSTANCE_QUIESCE (R309). -/
def execInstanceQuiesce (e : Entry) (s : State) : Result := .next (runCmd e 0x03 true [] (quiesceBody e) s)

/-- A quiescing instance holds nothing more that runs (R80, R276). -/
def State.quiet (s : State) (n : Nat) : Bool :=
  (s.admitted.all fun x => decide (x.2.inst ≠ n)) && (s.ik.bejobs.all fun j => decide (j.inst ≠ n)) &&
    (s.boards.all fun b => !b.2.valid || decide (b.2.owner ≠ n)) && s.posts.all fun p => decide (p.inst ≠ n)

/-- QUIESCE_COMPLETE (R276, R309, R355): stream entries without a coach go as well, so that the admitted use is zero; the ledger's CLOSE record, QUIESCED, the command's completion. -/
def execQuiesceComplete (n : Fin 512) (s : State) : Result :=
  .next (
    if (s.instAt n.val).st = .quiescing ∧ s.quiet n.val = true then
      let s := (s.gh.streams.filter fun x => x.2.valid && decide (x.2.owner = n.val)).foldl (fun s x => s.freeStream x.1) s
      let s := s.formRecord n.val 2 (minuteOf s.now)
      let s := s.modInst n.val fun i => { i with st := .quiesced }
      match (s.instAt 0).busy with
      | some b => if b.wait = .quiesce n.val then s.complete 0 { status := .ok, tag := b.tag, op := b.op, detail := 0, result := 0 } else s
      | none => s
    else s)

/-- Every object of an instance removed (R310). -/
def State.removeObjects (s : State) (n : Nat) : State :=
  let s := (s.gh.streams.filter fun x => decide (x.2.owner = n)).foldl (fun s x => s.freeStream x.1) s
  let s := (s.boards.filter fun b => decide (b.2.owner = n)).foldl (fun s b => s.freeBoard b.1) s
  let s := { s with
    ik := { s.ik with progs := s.ik.progs.filter fun p => p.1 / 2048 != n }
    gh := { s.gh with srtp := s.gh.srtp.filter fun c => c.2.owner != n }
    fn := { s.fn with ats := s.fn.ats.filter fun a => a.inst != n } }
  s.ringsOff n

/-- INSTANCE_RESET (R310, R355). -/
def resetBody (e : Entry) (s : State) : Ans :=
  let n := e.w2.toNat
  if (s.instAt n).st ≠ .quiesced then Ans.no s .stateConflict 0x51
  else
    let s := s.removeObjects n
    Ans.ok (s.modInst n fun i =>
      { i with st := .active, cause := 0, busy := none, behind := [], heldCpl := none, cplFirst := false, late := false, notices := [], ledger := { i.ledger with nextKind := 0 } })
/-- INSTANCE_RESET (R310). -/
def execInstanceReset (e : Entry) (s : State) : Result := .next (runCmd e 0x04 true [] (resetBody e) s)

/-- INSTANCE_REMOVE (R311, R355): records formed and not yet written are still written. -/
def removeBody (e : Entry) (s : State) : Ans :=
  let n := e.w2.toNat
  if (s.instAt n).st ≠ .quiesced then Ans.no s .stateConflict 0x51
  else
    let s := s.removeObjects n
    let s := { s with ty := { s.ty with lrOrphans := s.ty.lrOrphans ++ (s.instAt n).ledger.orphans } }
    Ans.ok ((s.setInst n {}).portalReset n)
/-- INSTANCE_REMOVE (R311). -/
def execInstanceRemove (e : Entry) (s : State) : Result := .next (runCmd e 0x05 true [] (removeBody e) s)

/-- INSTANCE_SET_PASID (R292): the translations of the old PASID are dropped; completed once every host-window load under it has
completed. -/
def setPasidBody (e : Entry) (s : State) : Ans :=
  let n := e.w2.toNat
  let pasid := entryArgs e 3 1 + 65536 * fld (entryArg e 4) 0 4
  if (s.instAt n).st ≠ .active then Ans.no s .stateConflict (stateDetail (s.instAt n).st)
  else if pasid = 0 ∨ fld (entryArg e 4) 4 12 ≠ 0 then Ans.field s
  else if s.pasidHeld n pasid then Ans.no s .stateConflict 0x52
  else
    let loads := s.loadsOf n fun _ => true
    let s := { s with fn := { s.fn with ats := s.fn.ats.filter fun a => a.inst != n } }.modInst n fun i => { i with pasid := pasid }
    if loads = [] then Ans.ok s else Ans.later s (.pasid loads)
/-- INSTANCE_SET_PASID (R292). -/
def execInstanceSetPasid (e : Entry) (s : State) : Result := .next (runCmd e 0x06 true [3, 4] (setPasidBody e) s)

/-- INSTANCE_ERROR (R293, R318): causes 1 to 3 name failures of the device's own requests, 4 a discarded host-window store. -/
def execInstanceError (n : Fin 512) (cause : Fin 4) (s : State) : Result :=
  .next ((s.aerCause (cause.val + 1)).instanceError n.val (cause.val + 1))

/-! ### Dirty logs -/

/-- DIRTY_LOG_START (R303, R315). -/
def logStartBody (e : Entry) (s : State) : Ans :=
  let n := e.w2.toNat
  let i := s.instAt n
  if i.st ≠ .active then Ans.no s .stateConflict (stateDetail i.st)
  else if entryArgs e 3 3 % 8 ≠ 0 ∨ entryArgs e 6 3 % 4096 ≠ 0 ∨ 2 ^ 40 ≤ entryArgs e 3 3 ∨ 2 ^ 40 ≤ entryArgs e 6 3 then Ans.field s
  else if i.log.isSome then Ans.no s .stateConflict 0x55
  else Ans.ok (s.setInst n { i with log := some { bitmap := entryArgs e 3 3, base := entryArgs e 6 3, pages := entryArgs e 9 2 } })
/-- DIRTY_LOG_START (R315). -/
def execDirtyLogStart (e : Entry) (s : State) : Result := .next (runCmd e 0x08 true (wRange 3 10) (logStartBody e) s)

/-- DIRTY_LOG_SWAP (R316). -/
def logSwapBody (e : Entry) (s : State) : Ans :=
  let n := e.w2.toNat
  let i := s.instAt n
  if entryArgs e 3 3 % 8 ≠ 0 ∨ 2 ^ 40 ≤ entryArgs e 3 3 then Ans.field s
  else
    match i.log with
    | none => Ans.no s .stateConflict 0x55
    | some d => Ans.ok (s.setInst n { i with log := some { d with bitmap := entryArgs e 3 3, logged := [] } }) d.logged.length
/-- DIRTY_LOG_SWAP (R316). -/
def execDirtyLogSwap (e : Entry) (s : State) : Result := .next (runCmd e 0x09 true [3, 4, 5] (logSwapBody e) s)

/-- DIRTY_LOG_STOP (R303). -/
def logStopBody (e : Entry) (s : State) : Ans :=
  let n := e.w2.toNat
  let i := s.instAt n
  match i.log with
  | none => Ans.no s .stateConflict 0x55
  | some d => Ans.ok (s.setInst n { i with log := none }) d.logged.length
/-- DIRTY_LOG_STOP (R303). -/
def execDirtyLogStop (e : Entry) (s : State) : Result := .next (runCmd e 0x0A true [] (logStopBody e) s)

/-! ### Frames and the classifier -/

/-- FRAME_DRAIN (R272, R303), with the origin of the change of IK_FRAME and the values that its COMMIT brought, if one did (R448). -/
def frameDrainAs (e : Entry) (o : Origin) (words : Option (Nat × Nat)) (s : State) : Ans :=
  let f := (entryArg e 3).toNat
  let w := match words with | some (a, b) => (BitVec.ofNat 16 a, BitVec.ofNat 16 b) | none => s.drainWords f
  if 24 ≤ f then Ans.field s
  else if (s.frameAt f).st = 0 then { Ans.later (s.drainAs f o w) (.drain f) with placed := some (w.1.toNat, w.2.toNat) }
  else if (s.frameAt f).st = 1 then Ans.later s (.drain f)
  else Ans.ok s
/-- FRAME_DRAIN on the device that reads it. (DEDUCED, log 89) -/
def frameDrainBody (e : Entry) (s : State) : Ans := frameDrainAs e .manager none s
/-- FRAME_DRAIN (R272). -/
def execFrameDrain (e : Entry) (s : State) : Result := .next (runCmd e 0x0C true [3] (frameDrainBody e) s)

/-- FRAME_RETURN (R272, R407): a frame without power is powered up first; a drain in progress ends. -/
def frameReturnBody (e : Entry) (s : State) : Ans :=
  let f := (entryArg e 3).toNat
  let x := s.frameAt f
  if 24 ≤ f then Ans.field s
  else if x.st = 0 then Ans.ok s
  else if x.powered then Ans.ok (s.setFrame f { x with back := true, recal := false, recalWant := false, retire := false })
  else Ans.ok ((s.modFrame f fun x => { x with retire := false }).frameStartUp f)
/-- FRAME_RETURN (R272). -/
def execFrameReturn (e : Entry) (s : State) : Result := .next (runCmd e 0x0D true [3] (frameReturnBody e) s)

/-- CLASS_REKEY (R229, R303). (DEDUCED, log 89) -/
def rekeyBody (s : State) : Ans := if s.rekeying then Ans.no s .stateConflict 0x54 else Ans.later (s.startRekey .manager) .rekey
/-- CLASS_REKEY (R229). -/
def execClassRekey (e : Entry) (s : State) : Result := .next (runCmd e 0x0E true [] rekeyBody s)

/-! ### Pieces -/

/-- CF_STATUS.STAGED. -/
def State.staged (s : State) : Nat := fld (s.reg 0x030000) 7 2

/-- The device with STAGED set. -/
def State.setStaged (s : State) (v : Nat) : State := s.setReg 0x030000 (putFld (s.reg 0x030000) 7 2 v)

/-- On a PRIMARY the function completes when both devices have finished it (R436): outcomes that differ set STAGED := 3. Both
devices carry the function out, whatever its outcome here. -/
def Ans.stage (a : Ans) (same : Bool) : Ans :=
  if a.s.role = 1 ∧ a.s.linkUp = true ∧ same = false then { Ans.no (a.s.setStaged 3) .stateConflict 0x61 with mirrored := true }
  else { a with mirrored := true }

/-- PIECE_STAGE BEGIN (R435); a function code the command does not have is a field out of range. -/
def stageBeginBody (e : Entry) (s : State) : Ans :=
  if entryArg e 3 ≠ 0#16 then Ans.field s
  else if s.bit 0x030000 10 ∨ s.cf.erasing.isSome = true then Ans.no s .stateConflict 0x68
  else Ans.later { s.setStaged 1 with cf := { s.cf with erasing := some s.now, eraseSame := true, written := [] } } .erase
/-- PIECE_STAGE function 0 (R435, R436): the twin's outcome counts when the erase is complete. -/
def execPieceStageBegin (x : StageBegin) (s : State) : Result :=
  .next (runCmd x.entry 0x10 true [3] (fun s =>
    let a := stageBeginBody x.entry s
    if a.wait = none then a.stage x.same
    else { a with s := { a.s with cf := { a.s.cf with eraseSame := x.same || decide (a.s.role ≠ 1) || !a.s.linkUp } }, mirrored := true }) s)

/-- PIECE_STAGE WRITE (R435): the octets are read from the manager's address space. -/
def stageWriteBody (e : Entry) (source : HostRead (List Byte)) (s : State) : Ans :=
  let off := entryArgs e 4 2
  let n := (entryArg e 9).toNat
  let units := (List.range n).map (off + ·)
  if n = 0 ∨ 256 < n ∨ entryArg e 3 ≠ 1#16 ∨ 2 ^ 40 ≤ entryArgs e 6 3 then Ans.field s
  else if s.staged ≠ 1 ∨ s.cf.erasing.isSome = true then Ans.no s .stateConflict 0x68
  else if units.any fun u => decide (slotUnits4k ≤ u) || s.cf.written.contains u then Ans.field s
  else
    s.reading 0 (entryArgs e 6 3) (4096 * n) source Ans.withOctets fun o s =>
      let slot := 1 - s.bootSlot
      let fl := units.foldl (fun t u => tblSet [] t (slot * 65536 + u) ((o.drop ((u - off) * 4096)).take 4096)) s.cf.flash
      Ans.ok { s with cf := { s.cf with flash := fl, written := s.cf.written ++ units } }
/-- PIECE_STAGE function 1 (R435). -/
def execPieceStageWrite (e : Entry) (source : HostRead (List Byte)) (same : Bool) (s : State) : Result :=
  .next (runCmd e 0x10 true (wRange 3 9) (fun s => (stageWriteBody e source s).stage same) s)

/-- Pieces of the staged image whose DIGEST differs from the active piece's (R435). (DESIGN CHOICE, log 132) -/
def State.stagedDiffers (s : State) : Nat :=
  ((s.imageUses (1 - s.bootSlot)).filter fun p =>
    match tblFind s.cf.active (p.kind * 64 + p.index % 64) with
    | some a => decide (a.digest ≠ p.digest)
    | none => true).length

/-- Every piece of an image matches its digest, those of the other device with them (R436). -/
def State.piecesOk (s : State) (slot : Nat) : Bool := (s.imagePieces slot).all Piece.ok

/-- PIECE_STAGE VERIFY (R435). -/
def stageVerifyBody (e : Entry) (s : State) : Ans :=
  let slot := 1 - s.bootSlot
  let bad := fun (d : Nat) => Ans.no ((s.setStaged 3).setBit 0x030001 1) .badArgument d
  if entryArg e 3 ≠ 2#16 then Ans.field s
  else if !s.imageOk slot || !s.piecesOk slot then bad 0x69
  else if s.imageSvn slot < s.svnMin then bad 0x6F
  else Ans.ok (s.setStaged 2) s.stagedDiffers
/-- PIECE_STAGE function 2 (R435). (DESIGN CHOICE, log 132) -/
def execPieceStageVerify (e : Entry) (same : Bool) (s : State) : Result :=
  .next (runCmd e 0x10 true [3] (fun s => (stageVerifyBody e s).stage same) s)

/-- The staged piece of a kind and index that this device uses. -/
def State.stagedPiece (s : State) (kind index : Nat) : Option Piece :=
  (s.imageUses (1 - s.bootSlot)).find? fun p => decide (p.kind = kind) && decide (p.index = index)

/-- What a staged kernel or library declares exceeds its bound (R438): fields of the piece, the new and the active one. -/
def State.pieceBound (s : State) (p : Piece) : Bool :=
  match p.kind with
  | 3 => decide (1600 < Config.pieceField p.octets 1) || decide (96 < Config.pieceField p.octets 2)
  | 4 =>
    match tblFind s.cf.active (4 * 64 + p.index % 64) with
    | some a => (List.range 65536).any fun k => decide (Config.pieceField a.octets (65536 + k) < Config.pieceField p.octets (65536 + k))
    | none => false
  | _ => false

/-- A standby steward pair is there (R438): PARAMS names it. -/
def State.hasStandby (s : State) : Bool := decide (s.standbyPairs ≠ [])

/-- PIECE_ACTIVATE function 0 (R437, R438); a function code the command does not have is a field out of range. -/
def activateBody (e : Entry) (s : State) : Ans :=
  let kind := (entryArg e 4).toNat
  let index := (entryArg e 5).toNat
  if entryArg e 3 ≠ 0#16 then Ans.field s
  else if s.staged ≠ 2 ∨ (s.cf.acts.any fun a => decide (a.piece.kind = kind)) = true then Ans.no s .stateConflict 0x6B
  else if kind = 1 ∨ kind = 8 then Ans.no s .stateConflict 0x6A
  else
    match s.stagedPiece kind index with
    | none => Ans.field s
    | some p =>
      if kind = 2 ∧ s.hasStandby = false then Ans.no s .stateConflict 0x6C
      else if s.pieceBound p then Ans.no s .badArgument 0x6D
      else if !p.ok then
        Ans.no (s.journal { origin := .manager, target := .event 7 0, old := BitVec.ofNat 16 kind, new := BitVec.ofNat 16 index }) .badArgument 0x69
      else
        let a := firstPeriodAt 1 (s.now + (2 ^ 48 + 49) / 50)
        let t := if kind = 3 then ((List.range 24).filter fun f => frameOn s f).foldl (fun s f => s.placeKernel f p.octets) s else s
        let later := { Ans.later { t with cf := { t.cf with acts := { piece := p, instant := a } :: s.cf.acts } } (.activation kind index) a with
          effect := some (boundaryOf 1 a) }
        match tblFind s.cf.active (kind * 64 + index % 64) with
        | some x => if x.digest = p.digest then Ans.ok s a else later
        | none => later
/-- PIECE_ACTIVATE function 0 (R437, R438): read while earlier activations are pending too. -/
def execPieceActivate (e : Entry) (s : State) : Result :=
  .next (if !s.readsActivation e.ring.val then s else s.carryOut e 0x11 true [3, 4, 5] (activateBody e))

/-- PIECE_ACTIVATE COMMIT (R439): the staged slot becomes DEFAULT, or the next start is a trial of it. -/
def activateCommitBody (e : Entry) (s : State) : Ans :=
  let slot := 1 - s.bootSlot
  let uses := s.imageUses slot
  let inService := uses.all fun p =>
    match tblFind s.cf.active (p.kind * 64 + p.index % 64) with
    | some a => decide (a.digest = p.digest)
    | none => false
  if entryArg e 3 ≠ 1#16 then Ans.field s
  else if s.staged ≠ 2 then Ans.no s .stateConflict 0x6B
  else if inService then Ans.ok ((s.writeHdr fun h => h.set 4 (BitVec.ofNat 16 slot)).setBit 0x030001 3)
  else Ans.ok ((s.writeHdr fun h => (h.set 5 (BitVec.ofNat 16 (0x8000 + slot))).set 6 0#16).setBit 0x030001 3) 1
/-- PIECE_ACTIVATE function 1 (R439). -/
def execPieceActivateCommit (e : Entry) (s : State) : Result := .next (runCmd e 0x11 true [3] (activateCommitBody e) s)

/-- PIECE_ACTIVATE CONFIRM (R439): only while TRIAL = 1. The refusal's detail is ACTIVATION_PENDING's neighbour NOT_READY. (DEDUCED, log 88) -/
def activateConfirmBody (e : Entry) (s : State) : Ans :=
  let slot := s.bootSlot
  if entryArg e 3 ≠ 2#16 then Ans.field s
  else if !s.bit 0x030000 12 then Ans.no s .stateConflict 0x53
  else
    let s := s.writeHdr fun h => (h.set 4 (BitVec.ofNat 16 slot)).set 5 (wordAt h 5 &&& 0x7FFF#16)
    let lock := (wordAt (s.slotWords slot 0 64) 7).getLsbD 0
    let s := if lock then { s with cf := { s.cf with svn := max s.cf.svn (s.imageSvn slot) } } else s
    Ans.ok (s.setBit 0x030001 3)
/-- PIECE_ACTIVATE function 2 (R439). -/
def execPieceActivateConfirm (e : Entry) (s : State) : Result := .next (runCmd e 0x11 true [3] (activateConfirmBody e) s)

/-! ### Journal, ledger ring, snapshot -/

/-- The entries of a journal by sequence: the ring's, and those of the region no longer in it. -/
def State.journalEntries (s : State) (twin : Bool) : List (List Word) :=
  if twin then s.jr.jtwin.reverse
  else
    let ring := s.jr.jring.reverse
    let first := match ring.head? with | some e => entrySeq e | none => s.jr.jseq
    let old := ((List.range norPlaces).map fun i => (s.jr.norWp + i) % norPlaces).filterMap fun p => tblFind s.jr.nor p
    (old.filter fun e => (BitVec.ofNat 32 (entrySeq e) - BitVec.ofNat 32 first).toInt < 0) ++ ring

/-- JOURNAL_READ (R449). -/
def journalReadBody (e : Entry) (s : State) : Ans :=
  let cnt := (entryArg e 6).toNat
  let src := (entryArg e 3).toNat
  if cnt = 0 ∨ 4096 < cnt ∨ 1 < src ∨ 2 ^ 40 ≤ entryArgs e 7 3 then Ans.field s
  else
    let l := ((s.journalEntries (decide (src = 1))).filter fun x => (BitVec.ofNat 32 (entrySeq x) - BitVec.ofNat 32 (entryArgs e 4 2)).toInt ≥ 0).take cnt
    let first := match l.head? with | some x => entrySeq x | none => 0
    let s := if l = [] then s else s.hostWrite 0 (entryArgs e 7 3) l.flatten
    { s := s, result := first + l.length * 2 ^ 32, quiet := true }
/-- JOURNAL_READ (R449). -/
def execJournalRead (e : Entry) (s : State) : Result := .next (runCmd e 0x12 true (wRange 3 9) (journalReadBody e) s)

/-- LEDGER_RING SET (R353); a function code the command does not have is a field out of range. -/
def ledgerSetBody (e : Entry) (s : State) : Ans :=
  let base := entryArgs e 4 3
  let lg := (entryArg e 7).toNat
  if entryArg e 3 ≠ 0#16 ∨ base % 4096 ≠ 0 ∨ 2 ^ 40 ≤ base ∨ lg < 4 ∨ 15 < lg then Ans.field s
  else if s.ty.lrOn then Ans.no s .stateConflict 0x55
  else Ans.ok (({ s with ty := { s.ty with lrBase := base, lrLog2 := lg, lrOn := true } }.setReg 0x0E0002 0#16).setReg 0x0E0003 0#16)
/-- LEDGER_RING function 0 (R353). -/
def execLedgerRingSet (e : Entry) (s : State) : Result := .next (runCmd e 0x14 true (wRange 3 7) (ledgerSetBody e) s)

/-- LEDGER_RING DISABLE (R353). -/
def ledgerDisableBody (e : Entry) (s : State) : Ans :=
  if entryArg e 3 ≠ 1#16 then Ans.field s else Ans.ok (State.holdAll { s with ty := { s.ty with lrOn := false } })
/-- LEDGER_RING function 1 (R353). -/
def execLedgerRingDisable (e : Entry) (s : State) : Result := .next (runCmd e 0x14 true [3] (ledgerDisableBody e) s)

/-- A ledger seeded from a record (R356). -/
def seedLedger (r : List Word) : Ledger :=
  let tot := (List.range 14).foldl (fun t i => tblSet 0 t i (wordsAt r (16 + 8 * i) 8)) []
  let tot := (List.range 32).foldl (fun t j => tblSet 0 t (32 + j) (wordsAt r (128 + 4 * j) 4)) tot
  { tot := tot, seq := (wordsAt r 5 2 + 1) % 2 ^ 32, prev := recDigest r, nextKind := 1 }

/-- LEDGER_RING SEED (R356): the record is read from the manager's address space. -/
def ledgerSeedBody (e : Entry) (block : HostRead (List Word)) (s : State) : Ans :=
  let n := e.w2.toNat
  let i := s.instAt n
  if entryArg e 3 ≠ 2#16 ∨ 2 ^ 40 ≤ entryArgs e 4 3 then Ans.field s
  else if i.st ≠ .active then Ans.no s .stateConflict 0x22
  else if i.ledger.tot ≠ [] ∨ i.ledger.inc ≠ [] ∨ (s.gh.streams.any fun x => decide (x.2.owner = n)) = true ∨
      (s.ik.progs.any fun p => decide (p.1 / 2048 = n)) = true ∨ (s.boards.any fun b => b.2.valid && decide (b.2.owner = n)) = true then
    Ans.no s .stateConflict 0x5B
  else
    s.reading 0 (entryArgs e 4 3) 512 block Ans.withBlock fun r s =>
      let k := fld (wordAt r 0) 12 3
      if r.length ≠ 256 ∨ recordDigest r ≠ recDigest r ∨ (k ≠ 2 ∧ k ≠ 3) then Ans.no s .badArgument 0x5D
      else Ans.ok (s.setInst n { i with ledger := { seedLedger r with held := i.ledger.held, gap := i.ledger.gap } })
/-- LEDGER_RING function 2 (R356). -/
def execLedgerRingSeed (e : Entry) (block : HostRead (List Word)) (s : State) : Result :=
  .next (runCmd e 0x14 true (wRange 3 6) (ledgerSeedBody e block) s)

/-- SNAPSHOT (R365). -/
def snapshotBody (e : Entry) (s : State) : Ans :=
  if entryArgs e 6 2 < 40976 ∨ 2 ^ 40 ≤ entryArgs e 3 3 then Ans.field s
  else if s.snapBusy then Ans.no s .stateConflict 0x5C
  else { Ans.later (snapGo s) (.snapshot (entryArgs e 3 3)) with quiet := true }
/-- SNAPSHOT (R365). -/
def execSnapshot (e : Entry) (s : State) : Result := .next (runCmd e 0x15 true (wRange 3 7) (snapshotBody e) s)

/-! ### Twin and power -/

/-- TWIN_SWITCH (R377, R392). -/
def twinSwitchBody (s : State) : Ans :=
  if s.role = 1 ∧ s.twinReady = true ∧ s.tw.handover = none then Ans.later s.startHandover .handover else Ans.no s .stateConflict 0x61
/-- TWIN_SWITCH (R392). -/
def execTwinSwitch (e : Entry) (s : State) : Result := .next (runCmd e 0x18 true [] (fun s => twinSwitchBody s) s)

/-- Every instance, coach and object of this device discarded (R377, R394). The manager's own record stays. -/
def State.discardObjects (s : State) : State :=
  let keep := s.inst.filter fun x => x.1 = 0
  { s with
    inst := keep, boards := [], blocks := [], posts := []
    ik := { s.ik with progs := [], coaches := [], bejobs := [], releasing := [], resting := [] }
    gh := { s.gh with streams := [], srtp := [], keys := [], stash := [], police := [], reasm := [], board := [], waiting := [], kept := [], standby := [] }
    tw := { s.tw with digests := [], twinDigests := [], ledgerWait := [], ledgerTwin := [], adopt := [], lastCpl := [] } }

/-- The device enters SYNCING (R366, R394). (DEDUCED, log 129) -/
def State.enterSyncing (s : State) : State :=
  let s := s.discardObjects
  let s := s.setReg 0x0F0000 (putFld (s.reg 0x0F0000) 13 3 6)
  { s with tw := { s.tw with shadow := true, mseqRx := none, handover := none, resync := .idle, paired := true } }

/-- TWIN_RESYNC (R377, R394). (DEDUCED, log 124) -/
def twinResyncBody (s : State) : Ans :=
  if (s.role = 0 ∨ s.role = 2) ∧ s.linkUp = true ∧ s.tw.peer.known = true ∧ s.tw.peer.role ≤ 1 then Ans.later s.enterSyncing .resync
  else Ans.no s .stateConflict 0x61
/-- TWIN_RESYNC (R377). -/
def execTwinResync (e : Entry) (s : State) : Result := .next (runCmd e 0x19 true [] (fun s => twinResyncBody s) s)

/-- POWER_STATE FULL, or a target it does not have (R410): at the next round. -/
def powerFullBody (e : Entry) (s : State) : Ans :=
  if entryArg e 3 ≠ 0#16 then Ans.field s
  else { Ans.later { s with pw := { s.pw with fullAsked := true, parkAsked := false } } .powerFull with effect := some ((s.ik.round + 1) * 2 ^ 38) }
/-- POWER_STATE to FULL (R410). -/
def execPowerStateFull (e : Entry) (s : State) : Result := .next (runCmd e 0x1C true [3] (powerFullBody e) s)

/-- PARK or NIGHT is refused for work in service (R411). -/
def State.inService (s : State) : Bool := s.timeInUse || decide (s.ik.bejobs ≠ [])

/-- POWER_STATE PARK (R410, R411). -/
def powerParkBody (e : Entry) (s : State) : Ans :=
  if entryArg e 3 ≠ 2#16 then Ans.field s
  else if s.inService then Ans.no s .stateConflict 0x62
  else { Ans.later { s with pw := { s.pw with parkAsked := true, fullAsked := false } } .powerPark with effect := some ((s.ik.round + 1) * 2 ^ 38) }
/-- POWER_STATE to PARK (R410). -/
def execPowerStatePark (e : Entry) (s : State) : Result := .next (runCmd e 0x1C true [3] (powerParkBody e) s)

/-- Instances with a ledger. -/
def State.ledgers (s : State) : List Nat := (List.range 512).filter fun n => decide (n ≠ 0) && (s.instAt n).hasLedger

/-- Room for fewer ledger records than twice the instances with a ledger (R411). -/
def State.ledgerShort (s : State) : Bool :=
  !s.ty.lrOn || decide (s.recordsHeld ≠ 0) ||
    decide (2 ^ s.ty.lrLog2 - ringCount (s.reg 0x0E0003) (s.reg 0x0E0002) < 2 * s.ledgers.length)

/-- The refusal of NIGHT, if there is one (R410, R411, R417, R440). -/
def State.nightRefusal (s : State) : Option Nat :=
  let ceil := (s.reg 0x010402).toInt
  if s.role = 1 then some 0x67
  else if s.inService then some 0x62
  else if s.bit 0x030000 10 then some 0x68
  else if 20000 < s.drawFor ceil ∨ ceil < (s.reg 0x020043).toInt ∨ s.pw.sensed = false then some 0x63
  else if ((List.range 16).all fun n => !(s.bit (almBase n + 10) 15 && s.bit (almBase n + 10) 11)) = true then some 0x64
  else if s.ledgerShort then some 0x65
  else none

/-- The journal's ring flushed to the region (R413). -/
def State.flushJournal (s : State) : Nat → State
  | 0 => s
  | n + 1 => if s.backlog = 0 then s else (norWrite true s).flushJournal n

/-- Every record formed is written while the ring has room. -/
def State.flushRecords (s : State) : Nat → State
  | 0 => s
  | n + 1 => (ledgerRecordWrite s).flushRecords n

/-- SUSPEND records formed and written (R355, R413). -/
def State.suspendLedgers (s : State) : State :=
  let s := s.ledgers.foldl (fun s n => s.formRecord n 3 (minuteOf s.now)) s
  s.flushRecords 1024

/-- POWER_STATE NIGHT (R411, R413): the ledgers, the transition's entry and the journal's flush, the completion, then Night. -/
def execPowerStateNight (e : Entry) (s : State) : Result :=
  .next (
    let n := e.ring.val
    if !s.readsRing n then s
    else
      let refusal := fun (s : State) =>
        if entryArg e 3 ≠ 3#16 then some (Status.badArgument, 0x58)
        else match s.nightRefusal with
          | some d => some (.stateConflict, d)
          | none => none
      let t := runCmd e 0x1C true [3] (fun s => match refusal s with
        | some (st, d) => Ans.no s st d
        | none => Ans.ok s.suspendLedgers) s
      if (s.precheck e 0x1C true).isNone && entryUses e [3] && (refusal s).isNone then (t.flushJournal 16384).nightDown else t)

/-- RESERVED_COMMAND (R308): an opcode that no command has. (DEDUCED, log 89) -/
def reservedOp (op : Byte) : Bool :=
  !([0x01, 0x02, 0x03, 0x04, 0x05, 0x06, 0x08, 0x09, 0x0A, 0x0C, 0x0D, 0x0E, 0x10, 0x11, 0x12, 0x14, 0x15, 0x18, 0x19, 0x1C, 0x40, 0x41, 0x44,
    0x45, 0x46, 0x48, 0x49, 0x4C, 0x4D, 0x4E, 0x50, 0x51].contains op.toNat)
/-- RESERVED_COMMAND (R308): refused with OPCODE on any ring. -/
def execReservedCommand (e : Entry) (op : Byte) (s : State) : Result :=
  .next (
    if reservedOp op && s.readsRing e.ring.val then
      let n := e.ring.val
      let s := s.cmdRead n
      s.commitCmd e op.toNat (Ans.no s .badArgument 0x56)
    else s)

end Sys2Proof.Machine
end

