-- ==== Sys2Proof/Machine/Parse.lean ====
section
/-! DEFINITION. A received frame taken apart (R221, R224, R226): the MAC's checks, the headers of Ethernet, IP and UDP, and their
checksums. -/
namespace Sys2Proof.Machine

/-- The one's complement sum of octets taken as 16-bit numbers, high octet first, folded to 16 bits. -/
def onesSum (o : List Byte) : Nat :=
  let n := (List.range ((o.length + 1) / 2)).foldl (fun t i => t + beNat (o ++ [0#8]) (2 * i) 2) 0
  let n := n % 65536 + n / 65536
  n % 65536 + n / 65536

/-- The checksum over octets. -/
def onesCheck (o : List Byte) : Nat := 65535 - onesSum o

/-- Octets with those from i on replaced. -/
def putOctets (o : List Byte) (i : Nat) (l : List Byte) : List Byte := o.take i ++ l ++ o.drop (i + l.length)

/-- One octet of a list, 0 past its end. (DESIGN CHOICE, log 103) -/
def octAt (o : List Byte) (i : Nat) : Nat := (o.getD i 0#8).toNat

/-- Octets i to i + n − 1. -/
def octs (o : List Byte) (i n : Nat) : List Byte := (o.drop i).take n

/-! ### Ethernet -/

/-- Tags of a frame: one 802.1Q tag, or more. -/
def tagCount (o : List Byte) : Nat :=
  if beNat o 12 2 = 0x8100 then (if beNat o 16 2 = 0x8100 then 2 else 1) else 0

/-- Where the octets after the EtherType begin. -/
def l3Start (o : List Byte) : Nat := if tagCount o = 0 then 14 else 18

/-- The frame's EtherType. -/
def etherType (o : List Byte) : Nat := beNat o (l3Start o - 2) 2

/-- The VLAN identifier of a tagged frame. -/
def vlanId (o : List Byte) : Option Nat := if tagCount o = 0 then none else some (beNat o 14 2 % 4096)

/-- A frame's octets carry a good FCS. -/
def fcsOk (o : List Byte) : Bool :=
  let n := o.length - 4
  decide (leOctets (fcs32 (o.take n)).toNat 4 = o.drop n)

/-- The discard of R221 a frame meets at its port, as the place of its count among the port's (R358). (DEDUCED, log 99) -/
def State.macReason (s : State) (port : Nat) (o : List Byte) : Option Nat :=
  let da := beNat o 0 6
  if o.length < 64 then some 12
  else if !fcsOk o then some 4
  else if 9216 < o.length then some 5
  else if 1 < tagCount o then some 6
  else if etherType o = 0x8808 then some 8
  else if da = tblGet 0 s.cf.macs port ∨ da = 2 ^ 48 - 1 ∨ s.cf.mcast.contains da = true then none
  else some 7

/-! ### IP -/

/-- A fragment (R226): its offset in octets, more to come, its identification. -/
structure Frag where
  off : Nat
  more : Bool
  ident : Nat
  deriving DecidableEq, Repr

/-- An IP packet's header: its addresses, the protocol of what it carries and where that begins, IPv4 options, an IPv6 extension
header other than one fragment header, its fragment, its end; malformed or truncated; the IPv4 checksum bad. -/
structure Ip where
  v6 : Bool := false
  src : Nat := 0
  dst : Nat := 0
  proto : Nat := 0
  start : Nat := 0
  stop : Nat := 0
  opts : Bool := false
  ext : Bool := false
  frag : Option Frag := none
  bad : Bool := false
  sumBad : Bool := false
  deriving DecidableEq, Repr

/-- A fragment, unless it is a whole datagram. -/
def fragOf (off : Nat) (more : Bool) (ident : Nat) : Option Frag :=
  if off = 0 && !more then none else some { off := off, more := more, ident := ident }

/-- An IPv4 header at octet a. -/
def parseV4 (o : List Byte) (a : Nat) : Ip :=
  let hl := octAt o a % 16 * 4
  let total := beNat o (a + 2) 2
  if o.length < a + 20 ∨ octAt o a / 16 ≠ 4 ∨ hl < 20 ∨ o.length < a + hl ∨ total < hl ∨ o.length < a + total then { bad := true }
  else
    let f := beNat o (a + 6) 2
    { src := beNat o (a + 12) 4, dst := beNat o (a + 16) 4, proto := octAt o (a + 9), start := a + hl, stop := a + total, opts := decide (20 < hl)
      frag := fragOf (f % 8192 * 8) (decide (f / 8192 % 2 = 1)) (beNat o (a + 4) 2), sumBad := decide (onesSum (octs o a hl) ≠ 65535) }

/-- The IPv6 extension headers (RFC 8200 and its companions). -/
def isExt (nh : Nat) : Bool := [0, 43, 44, 50, 51, 60, 135, 139, 140].contains nh

/-- Past the extension headers: what they carry, where it begins, and the fragment one of them names; an encapsulated payload and
what follows a fragment header other than the first fragment's stay closed. -/
def walkExt (o : List Byte) (nh a : Nat) (f : Option Frag) : Nat → Nat × Nat × Option Frag
  | 0 => (nh, a, f)
  | k + 1 =>
    if !isExt nh || decide (nh = 50) then (nh, a, f)
    else if nh = 44 then
      let w := beNat o (a + 2) 2
      let g := fragOf (w / 8 * 8) (decide (w % 2 = 1)) (beNat o (a + 4) 4)
      if 8 ≤ w then (octAt o a, a + 8, g) else walkExt o (octAt o a) (a + 8) g k
    else
      let n := if nh = 51 then (octAt o (a + 1) + 2) * 4 else (octAt o (a + 1) + 1) * 8
      walkExt o (octAt o a) (a + n) f k

/-- An IPv6 header at octet a. -/
def parseV6 (o : List Byte) (a : Nat) : Ip :=
  let n := beNat o (a + 4) 2
  let nh := octAt o (a + 6)
  if o.length < a + 40 ∨ octAt o a / 16 ≠ 6 ∨ o.length < a + 40 + n ∨ (nh = 44 ∧ n < 8) then { bad := true }
  else
    let base : Ip := { v6 := true, src := beNat o (a + 8) 16, dst := beNat o (a + 24) 16, proto := nh, start := a + 40, stop := a + 40 + n }
    if nh = 44 ∧ isExt (octAt o (a + 40)) = false then
      let f := beNat o (a + 42) 2
      { base with proto := octAt o (a + 40), start := a + 48, frag := fragOf (f / 8 * 8) (decide (f % 2 = 1)) (beNat o (a + 44) 4) }
    else if isExt nh then
      let r := walkExt o nh (a + 40) none 16
      { base with proto := r.1, start := r.2.1, ext := true, frag := r.2.2 }
    else base

/-- The IP header of a frame's octets without FCS. -/
def parseIp (o : List Byte) : Ip := if etherType o = 0x0800 then parseV4 o (l3Start o) else parseV6 o (l3Start o)

/-- The frame carries IP. -/
def isIp (o : List Byte) : Bool := decide (etherType o = 0x0800) || decide (etherType o = 0x86DD)

/-! ### UDP -/

/-- The packet's UDP header can be read: whole packet or first fragment, with room for its ports. -/
def Ip.hasUdp (ip : Ip) : Bool :=
  !ip.bad && decide (ip.proto = 17) && decide (ip.start + 8 ≤ ip.stop) && (match ip.frag with | some f => decide (f.off = 0) | none => true)

/-- The UDP ports. -/
def udpSport (o : List Byte) (ip : Ip) : Nat := beNat o ip.start 2
/-- The UDP destination port. -/
def udpDport (o : List Byte) (ip : Ip) : Nat := beNat o (ip.start + 2) 2

/-- The pseudo-header of a UDP datagram of n octets. -/
def pseudoHeader (v6 : Bool) (addrs : List Byte) (n : Nat) : List Byte :=
  if v6 then addrs ++ beOctets n 4 ++ [0#8, 0#8, 0#8, 17#8] else addrs ++ [0#8, 17#8] ++ beOctets n 2

/-- The address octets of a frame's IP header. -/
def addrOctets (o : List Byte) (v6 : Bool) : List Byte := if v6 then octs o (l3Start o + 8) 32 else octs o (l3Start o + 12) 8

/-- The UDP checksum is good (R224, row 10): present in IPv6; none is no error in IPv4. A length field outside the packet leaves
nothing that could check. (DEDUCED, log 101) -/
def udpOk (o : List Byte) (ip : Ip) : Bool :=
  let n := beNat o (ip.start + 4) 2
  let c := beNat o (ip.start + 6) 2
  if n < 8 ∨ ip.stop < ip.start + n then false
  else if c = 0 then !ip.v6
  else decide (onesSum (pseudoHeader ip.v6 (addrOctets o ip.v6) n ++ octs o ip.start n) = 65535)

/-- The UDP payload. -/
def udpPayload (o : List Byte) (ip : Ip) : List Byte := octs o (ip.start + 8) (min (beNat o (ip.start + 4) 2) (ip.stop - ip.start) - 8)

end Sys2Proof.Machine
end

