-- ==== Sys2Proof/Machine/Srtp.lean ====
section
/-! DEFINITION. SRTP contexts (R234 to R238): the estimate of an index, the replay window, the choice of a key, its lifetime, and
the packet's octets. -/
namespace Sys2Proof.Machine

/-- A discard reason: its counter (R251, R358) and its place among a ledger's reasons (R348). -/
structure Why where
  ctr : Nat
  led : Nat
  deriving DecidableEq, Repr

/-- POLICED. -/
def whyPoliced : Why := ⟨3044, 0⟩
/-- SSRC_MISMATCH. -/
def whySsrc : Why := ⟨3045, 1⟩
/-- REPLAY. -/
def whyReplay : Why := ⟨3046, 2⟩
/-- AUTH_FAIL. -/
def whyAuth : Why := ⟨3047, 3⟩
/-- MKI_UNKNOWN. -/
def whyMki : Why := ⟨3048, 4⟩
/-- KEY_EXPIRED. -/
def whyExpired : Why := ⟨3049, 5⟩
/-- EARLY. -/
def whyEarly : Why := ⟨3050, 6⟩
/-- LATE. -/
def whyLate : Why := ⟨3051, 7⟩
/-- DUP. -/
def whyDup : Why := ⟨3052, 8⟩
/-- SLOT_SMALL. -/
def whySmall : Why := ⟨3053, 9⟩
/-- TOO_LONG. -/
def whyLong : Why := ⟨3054, 10⟩
/-- NO_TARGET. -/
def whyTarget : Why := ⟨3055, 11⟩
/-- DEPART_LATE. -/
def whyDepart : Why := ⟨3056, 12⟩
/-- STALE_STREAM. -/
def whyStale : Why := ⟨3058, 13⟩
/-- OVERSIZE of R249. -/
def whyOversize : Why := ⟨3059, 14⟩
/-- NO_KEY. -/
def whyNoKey : Why := ⟨3061, 15⟩
/-- TEMPLATE_ERR. -/
def whyTemplate : Why := ⟨3062, 16⟩

/-- A frame discarded or counted for a reason, of an instance, at an instant (R251, R348). -/
def State.discard (s : State) (y : Why) (n t : Nat) : State := (s.count y.ctr 1).billReason n y.led t

/-! ### Sizes (R234: RFC 3711, RFC 7714) -/

/-- Octets of authentication a suite adds; SRTCP of a 32-bit suite carries 80 bits (RFC 4568). (PRESUMED, log 49) -/
def tagLen (suite : Nat) (rtcp : Bool) : Nat :=
  if isAead suite then 16 else if rtcp then 10 else [10, 4, 10, 4].getD suite 10

/-- Octets after the MKI. (PRESUMED, log 49) -/
def afterMki (suite : Nat) (rtcp : Bool) : Nat := if isAead suite then 0 else tagLen suite rtcp

/-- The MKI of a packet, and the packet without it. -/
def takeMki (suite mkiLen : Nat) (rtcp : Bool) (p : List Byte) : List Byte × List Byte :=
  let i := p.length - afterMki suite rtcp - mkiLen
  (octs p i mkiLen, p.take i ++ p.drop (i + mkiLen))

/-- An MKI put into a protected packet. -/
def addMki (suite : Nat) (rtcp : Bool) (mki p : List Byte) : List Byte :=
  let i := p.length - afterMki suite rtcp
  p.take i ++ mki ++ p.drop i

/-- The SRTCP index of a packet without MKI. -/
def rtcpIndexOf (suite : Nat) (p : List Byte) : Nat := beNat p (p.length - afterMki suite true - 4) 4 % 2 ^ 31

/-- Octets brought to n. -/
def fitOctets (o : List Byte) (n : Nat) : List Byte := (o ++ List.replicate n 0#8).take n

/-- A packet opened: none where authentication fails. (PRESUMED, log 49) -/
def openPacket (suite : Nat) (k : SrtpKey) (index : Nat) (rtcp : Bool) (p : List Byte) : Option (List Byte) :=
  srtpOpen suite (tagLen suite rtcp) k.key k.salt index rtcp p

/-- A packet protected, with its MKI. (PRESUMED, log 49) -/
def sealPacket (suite : Nat) (k : SrtpKey) (index : Nat) (rtcp : Bool) (p : List Byte) : List Byte :=
  addMki suite rtcp k.mki (srtpProtect suite (tagLen suite rtcp) k.key k.salt index rtcp p)

/-! ### Indices and windows (R236) -/

/-- The estimated index of a received SRTP packet (RFC 3711 Appendix A); none where it would lie before the first. -/
def SrtpDir.estimate (d : SrtpDir) (seq : Nat) : Option Nat :=
  if !d.seen then some (d.roc * 65536 + seq)
  else
    let sl := d.highest % 65536
    if sl < 32768 ∧ 32768 + sl < seq then (if d.roc = 0 then none else some ((d.roc - 1) * 65536 + seq))
    else if 32768 ≤ sl ∧ seq + 32768 < sl then some ((d.roc + 1) % 2 ^ 32 * 65536 + seq)
    else some (d.roc * 65536 + seq)

/-- An index was seen, or lies below the window of 128. -/
def replayed (seen : Bool) (highest : Nat) (window : List Nat) (i : Nat) : Bool :=
  seen && decide (i ≤ highest) && (decide (128 ≤ highest - i) || window.contains i)

/-- The window after an index. -/
def windowWith (window : List Nat) (highest i : Nat) : List Nat :=
  (i :: window).filter fun j => decide (max highest i < j + 128)

/-! ### Keys (R237, R238) -/

/-- Which key slot a frame uses: none, or CURRENT (false) or NEXT (true). -/
def SrtpDir.slotFor (d : SrtpDir) (mkiLen : Nat) (mki : List Byte) (rtcp : Bool) (i : Nat) : Except Why Bool :=
  if mkiLen ≠ 0 then
    let has := fun (k : Option SrtpKey) => match k with | some x => decide (x.mki = mki) | none => false
    if has d.current then .ok false else if has d.next then .ok true else .error whyMki
  else if !rtcp && (match d.next with | some k => decide (k.fromIndex ≤ i) | none => false) then .ok true
  else .ok false

/-- The key of a slot. -/
def SrtpDir.key (d : SrtpDir) (next : Bool) : Option SrtpKey := if next then d.next else d.current

/-- The key of a slot replaced. -/
def SrtpDir.putKey (d : SrtpDir) (next : Bool) (k : SrtpKey) : SrtpDir := if next then { d with next := some k } else { d with current := some k }

/-- The uses a key slot has left are none (R238). -/
def SrtpKey.spent (k : SrtpKey) (rtcp : Bool) : Bool := if rtcp then decide (2 ^ 31 ≤ k.usedRtcp) else decide (2 ^ 48 ≤ k.usedRtp)

/-- A use of a key slot counted. (DEDUCED, log 104) -/
def SrtpKey.use (k : SrtpKey) (rtcp : Bool) : SrtpKey := if rtcp then { k with usedRtcp := k.usedRtcp + 1 } else { k with usedRtp := k.usedRtp + 1 }

/-- NEXT becomes CURRENT. (DEDUCED, log 104) -/
def SrtpDir.advance (d : SrtpDir) (next : Bool) : SrtpDir := if next then { d with current := d.next, next := none } else d

/-- The context of a stream's leg. -/
def Stream.ctx (x : Stream) (leg : Bool) : Nat := if leg then x.ctxB else x.ctxA

/-- A context. -/
def State.ctx (s : State) (c : Nat) : Srtp := tblGet {} s.gh.srtp c

/-- The device with a context replaced. -/
def State.setCtx (s : State) (c : Nat) (x : Srtp) : State := { s with gh := { s.gh with srtp := tblSet {} s.gh.srtp c x } }

/-- One direction of a context: sending or receiving. -/
def Srtp.dir (x : Srtp) (tx : Bool) : SrtpDir := if tx then x.tx else x.rx

/-- One direction of a context replaced. -/
def Srtp.putDir (x : Srtp) (tx : Bool) (d : SrtpDir) : Srtp := if tx then { x with tx := d } else { x with rx := d }

/-- A use beyond a key slot's lifetime (R238): the first sets GH_EVT.KEY_EXPIRY and notifies the owner; `k` counts it, so that no
other does. -/
def State.keyExpired (s : State) (stream c : Nat) (leg tx next rtcp : Bool) (k : SrtpKey) : State :=
  let first := if rtcp then decide (k.usedRtcp = 2 ^ 31) else decide (k.usedRtp = 2 ^ 48)
  if first then
    let x := s.ctx c
    let s := (s.setCtx c (x.putDir tx ((x.dir tx).putKey next (k.use rtcp)))).setBit 0x080101 7
    s.notice (s.stream stream).owner 1 (stream + (if leg then 2 ^ 20 else 0) + (if tx then 2 ^ 21 else 0))
  else s

/-- A received SRTP or SRTCP packet (R236 to R239): its clear octets, or why it is discarded. -/
def State.unprotect (s : State) (stream : Nat) (leg rtcp : Bool) (p : List Byte) (t : Nat) : State × Except Why (List Byte) :=
  let x := s.stream stream
  let c := x.ctx leg
  let ctx := s.ctx c
  let d := ctx.rx
  let suite := ctx.suite.getD 0
  let r := takeMki suite ctx.mkiLen rtcp p
  match if rtcp then some (rtcpIndexOf suite r.2) else d.estimate (beNat p 2 2) with
  | none => (s, .error whyReplay)
  | some i =>
    if if rtcp then replayed (decide (d.rtcpWindow ≠ [])) d.rtcpIndex d.rtcpWindow i else replayed d.seen d.highest d.window i then (s, .error whyReplay)
    else
      match d.slotFor ctx.mkiLen r.1 rtcp i with
      | .error y => (s, .error y)
      | .ok next =>
        match d.key next with
        | none => (s, .error whyNoKey)
        | some k =>
          if k.spent rtcp then (s.keyExpired stream c leg false next rtcp k, .error whyExpired)
          else
            let s := s.bill x.owner lcSrtp 1 t
            match openPacket suite k i rtcp r.2 with
            | none => (s, .error whyAuth)
            | some o =>
              let d := d.putKey next (k.use rtcp)
              let d := if rtcp then { d with rtcpIndex := max d.rtcpIndex i, rtcpWindow := windowWith d.rtcpWindow d.rtcpIndex i }
                else
                  let h := if d.seen then max d.highest i else i
                  { d.advance next with seen := true, highest := h, roc := h / 65536, window := windowWith d.window (if d.seen then d.highest else i) i }
              (s.setCtx c { ctx with rx := d }, .ok o)

/-- A packet to be sent protected (R237, R238, R250): its octets, or why it is discarded. A discarded one leaves the send state. (DEDUCED, log 105) -/
def State.protect (s : State) (stream : Nat) (leg rtcp : Bool) (seq : Nat) (p : List Byte) (t : Nat) : State × Except Why (List Byte) :=
  let x := s.stream stream
  let c := x.ctx leg
  let ctx := s.ctx c
  let d := ctx.tx
  let suite := ctx.suite.getD 0
  let roc := if d.seen && decide (seq < d.highest % 65536) then (d.roc + 1) % 2 ^ 32 else d.roc
  let i := if rtcp then d.rtcpIndex else roc * 65536 + seq
  let next := !rtcp && (match d.next with | some k => decide (k.fromIndex ≤ i) | none => false)
  match d.key next with
  | none => (s, .error whyNoKey)
  | some k =>
    if k.spent rtcp then (s.keyExpired stream c leg true next rtcp k, .error whyExpired)
    else
      let s := s.bill x.owner lcSrtp 1 t
      let d := (d.putKey next (k.use rtcp)).advance next
      let d := if rtcp then { d with rtcpIndex := (i + 1) % 2 ^ 31 } else { d with seen := true, roc := roc, highest := i }
      (s.setCtx c { ctx with tx := d }, .ok (sealPacket suite k i rtcp p))

/-- The send ROC of a stream without SRTP is not used: nothing of its context changes. (DEDUCED, log 105) -/
def State.protectIf (s : State) (stream : Nat) (leg rtcp : Bool) (seq : Nat) (p : List Byte) (t : Nat) : State × Except Why (List Byte) :=
  if (s.stream stream).srtp then s.protect stream leg rtcp seq p t else (s, .ok p)

end Sys2Proof.Machine
end

