-- ==== Sys2Proof/Machine/ChannelCmds.lean ====
section
/-! DEFINITION. The instance commands (R70, R78, R80, R231, R257 to R262, R266 to R269, R277, R278, R280, R305 to R307). -/
namespace Sys2Proof.Machine

/-! ### Programs -/

/-- A place for words in DRAM that the device chooses: free, 16-word aligned. (DESIGN CHOICE, log 91) -/
def State.freePlace (s : State) : Nat := Config.freeNat s.fv % 2 ^ 33 * 16

/-- PROGRAM_REGISTER (R259, R305): the image is read from the instance's address space. Where in the
program's address space its code begins is the kernel's: free. (DEDUCED, log 90; DESIGN CHOICE, log 91) -/
def programRegisterBody (e : Entry) (image : HostRead (List Word)) (s : State) : Ans :=
  let n := e.ring.val
  let i := (entryArg e 3).toNat
  let size := (entryArg e 17).toNat
  if 2048 ≤ i ∨ 2 ^ 40 ≤ entryArgs e 4 3 then Ans.field s
  else if size = 0 ∨ 16 < size then Ans.no s .badArgument 0x34
  else if (s.prog n i).valid then Ans.no s .stateConflict 0x54
  else
    s.reading n (entryArgs e 4 3) (2 * entryArgs e 7 2) image Ans.withBlock fun ws s =>
      let base := s.freePlace
      let code := (Config.freeAddr s.fv).toNat
      let p : Prog :=
        { base := base, words := entryArgs e 7 2, entry := (code + entryArgs e 9 2) % 2 ^ 48, perChannel := entryArgs e 11 2, fixed := entryArgs e 13 2
          staged := (entryArg e 15).toNat, blocks := (entryArg e 16).toNat, size := size, beState := (entryArg e 18).toNat
          args := (List.range 8).map fun k => entryArg e (19 + k), beBase := s.drawn.freePlace, valid := true }
      let s := s.drawn.drawn.writeMem base (ws.take (entryArgs e 7 2))
      Ans.ok { s with ik := { s.ik with progs := tblSet {} s.ik.progs (n * 2048 + i) p } }
/-- PROGRAM_REGISTER (R305). -/
def execProgramRegister (e : Entry) (image : HostRead (List Word)) (s : State) : Result :=
  .next (runCmd e 0x40 false (wRange 3 26) (programRegisterBody e image) s)

/-- PROGRAM_REMOVE (R305). -/
def programRemoveBody (e : Entry) (s : State) : Ans :=
  let n := e.ring.val
  let i := (entryArg e 3).toNat
  if 2048 ≤ i then Ans.field s
  else if !(s.prog n i).valid then Ans.no s .badArgument 0x70
  else if (s.admitted.any fun x => decide (x.2.inst = n) && decide (x.2.prog = i)) ∨ (s.ik.bejobs.any fun j => decide (j.inst = n) && decide (j.prog = i)) then
    Ans.no s .stateConflict 0x54
  else Ans.ok { s with ik := { s.ik with progs := tblSet {} s.ik.progs (n * 2048 + i) {} } }
/-- PROGRAM_REMOVE (R305). -/
def execProgramRemove (e : Entry) (s : State) : Result := .next (runCmd e 0x41 false [3] (programRemoveBody e) s)

/-! ### Opening a channel -/

/-- What a parameter block of CHANNEL_OPEN asks for (R306). -/
structure OpenReq where
  form : Nat
  srtp : Bool
  chk : Bool
  full : Bool
  v6 : Bool
  group : Nat
  vid : Nat
  period : Nat
  fallback : Nat
  prog : Nat
  rel : Nat
  boards : List Word
  deriving DecidableEq, Repr

/-- The request in a block's words. -/
def openReq (b : List Word) : OpenReq :=
  let m := (periodMul (fld (wordAt b 2) 13 3)).getD 1
  { form := fld (wordAt b 0) 13 2, srtp := (wordAt b 0).getLsbD 12, chk := (wordAt b 0).getLsbD 11, full := (wordAt b 0).getLsbD 10
    v6 := (wordAt b 0).getLsbD 9, group := fld (wordAt b 0) 0 4, vid := fld (wordAt b 1) 0 12, period := fld (wordAt b 2) 13 3
    fallback := fld (wordAt b 2) 0 3, prog := (wordAt b 3).toNat, rel := if wordAt b 4 = 0#16 then 2000 * m else (wordAt b 4).toNat
    boards := ((List.range 4).map fun i => wordAt b (56 + i)).filter fun w => w.getLsbD 15 }

/-- An address of 8 words in the order of its octets: IPv4 in the first two. -/
def blockAddr (b : List Word) (i : Nat) (v6 : Bool) : Nat := beNat (wordsOctets ((b.drop i).take (if v6 then 8 else 2))) 0 (if v6 then 16 else 4)

/-- The key of a leg: A at word 16, B at word 36. -/
def OpenReq.key (r : OpenReq) (b : List Word) (i : Nat) : ClassKey :=
  { full := r.full, group := r.group, vid := r.vid, v6 := r.v6, dst := blockAddr b i r.v6, dport := (wordAt b (i + 8)).toNat
    src := if r.full then blockAddr b (i + 9) r.v6 else 0, sport := if r.full then (wordAt b (i + 17)).toNat else 0 }

/-- The keys a form asks for. -/
def OpenReq.keys (r : OpenReq) (b : List Word) : List (ClassKey × Bool) :=
  if r.form = 1 then [(r.key b 16, false), (r.key b 36, true)] else [(r.key b 16, false)]

/-- A guaranteed form, with a coach (R306). -/
def OpenReq.coached (r : OpenReq) : Bool := decide (r.form ≤ 1)

/-- The channels a guaranteed request asks for, of a stream from a period on (R12): a RELAY entry's legs are two. -/
def OpenReq.channels (r : OpenReq) (stream first : Nat) : List Member :=
  let m : Member := { stream := stream, first := first, boards := r.boards }
  m :: if r.form = 1 then [{ m with leg := true }] else []

/-- Every field of a block in its range (R232, R306). -/
def State.openFields (s : State) (r : OpenReq) (b : List Word) : Bool :=
  let w := wordAt b
  let lg := fld (w 5) 9 4
  let units := fld (w 5) 0 7
  decide (b.length = 72) && decide (w 0 &&& 0x81F0#16 = 0#16) && decide (r.group ≤ 8) && decide (w 1 &&& 0xF000#16 = 0#16) &&
    decide (2 ≤ lg) && decide (lg ≤ 12) && decide (1 ≤ units) && decide (w 5 &&& 0xE180#16 = 0#16) && decide (w 6 ≠ 0#16) && decide (w 14 ≠ 0#16) &&
    decide (fld (w 15) 13 3 < s.portCount) && decide (w 15 &&& 0x1F80#16 = 0#16) && decide (1 ≤ fld (w 15) 0 7) && decide (fld (w 15) 0 7 ≤ 64) &&
    decide (wordsAt b 60 3 < 2 ^ 40) && (!r.coached || decide (wordsAt b 63 3 < 2 ^ 40)) && (decide (r.form ≠ 2) || decide (fld (w 67) 0 8 ≤ 191)) && ((List.range 4).all fun i => decide (w (68 + i) = 0#16)) &&
    decide (fld (w 67) 8 8 = 0) && ([34, 35].all fun i => decide (w i = 0#16)) && (decide (r.form ≠ 1) || [54, 55].all fun i => decide (w i = 0#16)) &&
    (!r.coached || (List.range 4).all fun i => decide (fld (w (56 + i)) 12 2 = 0)) && (decide (w 2 &&& 0x1FF8#16 = 0#16)) && (!r.coached || decide (r.prog < 2048))

/-- The header template's octets check (R306): Ethernet, at most one tag, IPv4 of 20 or IPv6 of 40 octets, UDP, RTP of 12. -/
def templateOk (v6 : Bool) (words : Nat) (t : List Word) : Bool :=
  let o := wordsOctets t
  let et := beNat o 12 2
  let tag := decide (et = 0x8100)
  let l2 := if tag then 18 else 14
  let et := if tag then beNat o 16 2 else et
  let ip := if v6 then 40 else 20
  let proto := (o.getD (l2 + (if v6 then 6 else 9)) 0#8).toNat
  let ver := (o.getD l2 0#8).toNat
  let total := l2 + ip + 8 + 12
  decide (et = if v6 then 0x86DD else 0x0800) && decide (if v6 then ver / 16 = 6 else ver = 0x45) && decide (proto = 17) &&
    decide (o.getD (l2 + ip + 8) 0#8 &&& 0xDF#8 = 0x80#8) && decide (words = (total + 1) / 2)

/-- The lowest stream index free. (DESIGN CHOICE, log 93) -/
def State.freeStreamIdx (s : State) : Option Nat := (List.range 262144).find? fun i => !(s.stream i).valid

/-- SRTP contexts free, lowest first. (DESIGN CHOICE, log 93) -/
def State.freeCtx (s : State) (n : Nat) : List Nat := ((List.range 262144).filter fun c => !(tblGet {} s.gh.srtp c).used).take n

/-- The refusal of a board word, if there is one (R305). -/
def State.boardRefusal (s : State) (n : Nat) (ws : List Word) : Option (Status × Nat) :=
  ws.findSome? fun w =>
    let d := s.board (fld w 0 12)
    if !d.valid then some (.badArgument, 0x70) else if d.owner ≠ n then some (.notPermitted, 0x40) else none

/-- The refusals of a request before the admission test, in order (R227, R261, R280, R305, R306); a program whose coach has no
room for both legs of a RELAY entry is of the wrong coach size. (DESIGN CHOICE, log 180) -/
def State.openRefusal (s : State) (n : Nat) (r : OpenReq) (b template : List Word) : Option (Status × Nat) :=
  let m := (periodMul r.period).getD 1
  if periodMul r.period = none then some (.badArgument, 0x30)
  else if !s.openFields r b then some (.badArgument, 0x58)
  else if r.coached && decide (3 < r.fallback) then some (.badArgument, 0x32)
  else if r.coached && (decide (r.rel < 400) || decide (2000 * m < r.rel)) then some (.badArgument, 0x31)
  else if r.coached && !(s.prog n r.prog).valid then some (.badArgument, 0x70)
  else if r.coached && decide ((s.prog n r.prog).size < (r.channels 0 0).length) then some (.badArgument, 0x34)
  else if !templateOk r.v6 (fld (wordAt b 15) 0 7) template then some (.badArgument, 0x58)
  else if r.coached && decide ((s.prog n r.prog).staged < (wordAt b 66).toNat) then some (.badArgument, 0x58)
  else if (r.keys b).any fun k => s.keyPresent k.1 then some (.stateConflict, 0x54)
  else match (r.keys b).map Prod.fst with
    | [x, y] => if x = y then some (.stateConflict, 0x54) else if r.coached then s.boardRefusal n r.boards else none
    | _ => if r.coached then s.boardRefusal n r.boards else none

/-- The stream entry a request makes (R232). -/
def State.openStream (s : State) (n : Nat) (r : OpenReq) (b template : List Word) (ctxs : List Nat) : Stream :=
  let w := wordAt b
  { valid := true, form := r.form, srtp := r.srtp, ssrcChk := r.chk, owner := n, period := r.period, ringLog2 := fld (w 5) 9 4
    slotUnits := fld (w 5) 0 7, slotTs := (w 6).toNat, tsAnchor := BitVec.ofNat 32 (wordsAt b 7 2), ringBase := s.freePlace
    ssrcA := BitVec.ofNat 32 (wordsAt b 10 2), ssrcB := BitVec.ofNat 32 (wordsAt b 12 2), ctxA := ctxs.getD 0 0, ctxB := ctxs.getD 1 0
    target := fld (w 67) 0 8, pktLimit := (w 14).toNat, template := s.drawn.freePlace, egressPort := fld (w 15) 13 3
    templateWords := fld (w 15) 0 7, tmpl := template.take (fld (w 15) 0 7), rel := 0, stagger := 0, fallback := r.fallback }

/-- A coach that takes the channels (R258, R269): same instance, program, period and release offset, with room, its boards within
16, its reckoner still passing; lowest number first. -/
def State.joinable (s : State) (n : Nat) (r : OpenReq) (ms : List Member) : Option (Nat × Coach) :=
  s.admitted.findSome? fun x =>
    let k := x.2
    let k2 := k.with_ ms
    if k.inst = n ∧ k.prog = r.prog ∧ k.period = r.period ∧ k.rel = r.rel ∧ k.withdrawn = none ∧ k.mergeInto = none ∧ k.takes = none ∧
        k2.size ≤ (s.progOf k).size ∧ k2.boards.length ≤ 16 ∧ s.fits k2 (some x.1) k.reck = true then some (x.1, k2) else none

/-- The device with a request's stream and its coach in place. -/
def State.withOpen (s : State) (i c : Nat) (x : Stream) (k : Coach) : State :=
  { s with gh := { s.gh with streams := tblSet {} s.gh.streams i { x with coach := some c } }, ik := { s.ik with coaches := tblSet {} s.ik.coaches c k } }

/-- The keys of a request inserted; none where one finds no place (R229). -/
def State.openKeys (s : State) (i : Nat) : List (ClassKey × Bool) → Option State
  | [] => some s
  | k :: ks =>
    match s.insertKey s.fillTable { key := k.1, stream := i, leg := k.2 } with
    | some t => t.openKeys i ks
    | none => none

/-- A key found no place (R229): GH_EVT.STASH_FULL, and a re-key at once where none runs. -/
def State.stashFull (s : State) : Ans :=
  let t := s.setBit 0x080101 1
  Ans.no (if t.rekeying ∨ !t.leads then t else t.startRekey .self) .stateConflict 0x23

/-- Boards that coach c is the first to contribute to are to be homed on its frame or the next whose adder and store hold (R269), each from
its next boundary on (R271); a device that follows is sent where (R254). (DESIGN CHOICE, log 63) -/
def State.homeBoards (s : State) (c f : Nat) (bs : List Nat) : State :=
  bs.foldl (fun s b =>
    let d := s.board b
    if !s.leads ∨ (s.admitted.any fun x => decide (x.1 ≠ c) && (contribs x.2.boards).contains b) ∨ d.plan.isSome ∨ d.old.isSome then s
    else
      let t := { s with boards := tblSet {} s.boards b { d with valid := false } }
      match t.homeFor f (s.boardWords b) (State.boardPosts d) with
      | some h => if h = d.home then s else s.rehomeAt b h
      | none => s) s

/-- SRTP contexts a request needs (R232, R235): one for each leg. -/
def OpenReq.contexts (r : OpenReq) : Nat := if r.srtp then (if r.form = 1 then 2 else 1) else 0

/-- The stream of a request, with its first period's anchor (R306). -/
def State.openEntry (s : State) (n g : Nat) (r : OpenReq) (b template : List Word) : Stream :=
  { s.openStream n r b template (s.freeCtx r.contexts) with periodAnchor := BitVec.ofNat 32 (g + (wordAt b 9).toNat) }

/-- The channel committed in t (R257, R305): its keys, contexts and initial state, which each of its channels receives. `s` is the
device before the command. (DESIGN CHOICE, log 180) -/
def State.openCommit (s t : State) (n i c g : Nat) (r : OpenReq) (b init : List Word) : Ans :=
  match t.openKeys i (r.keys b) with
  | none => s.stashFull
  | some t =>
    let t := { t with gh := { t.gh with srtp := (s.freeCtx r.contexts).foldl (fun tb k => tblSet {} tb k { used := true, owner := n }) t.gh.srtp } }
    let k := t.coach c
    let t := if r.coached then (k.members.filter fun m => decide (m.stream = i)).foldl (fun t m =>
      t.writeMem (t.stateOf k m.slot) (init.take (wordAt b 66).toNat)) t else t
    let a := Ans.ok ((t.drawn.drawn).count 3136 1) (g % 2 ^ 32 + i * 2 ^ 32)
    { a with placed := if r.coached then some (c, k.reck) else none }

/-- A coach that a request forms, on no reckoner yet. -/
def State.freshCoach (s : State) (n : Nat) (r : OpenReq) (ms : List Member) (g : Nat) : Coach :=
  { inst := n, prog := r.prog, period := r.period, rel := r.rel, first := g, stateBase := s.drawn.drawn.freePlace, reck := 192, valid := true : Coach }.with_ ms

/-- A request's channels placed as decided (R254): stream i from period g on, in coach k, number c, on reckoner rk, with the stagger
its port's slots allow (R262); UNPROTECTED on a secondary whose frame there is out of service (R378). -/
def State.openApply (s : State) (n i c g rk : Nat) (r : OpenReq) (b template init : List Word) (k : Coach) : Ans :=
  let x := s.openEntry n g r b template
  let st := (s.staggerFor i x r.rel).getD 0
  let x := { x with stagger := st, rel := usUnits r.rel + st, coach := some c }
  let new := (contribs r.boards).filter fun w => !(contribs (s.coach c).boards).contains w
  { s.openCommit ((s.withOpen i c x { k with reck := rk, unprotected := k.unprotected || s.unserved rk }).homeBoards c (frameOf rk) new) n i c g r b init with
    effect := some (boundaryOf k.mul g) }

/-- CHANNEL_OPEN's admission (R257, R258, R262, R266 to R269, R306), in the order of R268: PACE, the resources in table order, the
demand test. -/
def State.openAdmit (s : State) (n : Nat) (r : OpenReq) (b template init : List Word) : Ans :=
  let i := s.freeStreamIdx.getD 262144
  let g := firstPeriodAfter ((periodMul r.period).getD 1) s.now
  let x := s.openEntry n g r b template
  if !r.coached then
    let t := s.setStream i x
    if !s.paceOk then Ans.no s .stateConflict 0x26
    else match t.overCeiling n r.contexts true with
    | some d => Ans.no s .refusedCapacity d
    | none => s.openCommit t n i 65536 g r b init
  else if s.parking then Ans.no s .stateConflict 0x66
  else if !s.paceOk then Ans.no s .stateConflict 0x26
  else
    let ms := r.channels i g
    let j := s.joinable n r ms
    let c := match j with | some (c, _) => c | none => s.freeCoach.getD 65536
    let k := match j with | some (_, k) => k | none => s.freshCoach n r ms g
    match (s.withOpen i c x k).overCeiling n r.contexts (s.staggerFor i x r.rel).isSome with
    | some d => Ans.no s .refusedCapacity d
    | none =>
      match if j.isSome then some k.reck else s.place k none with
      | none => Ans.no s .refusedCapacity 0x02
      | some rk => s.openApply n i c g rk r b template init k

/-- A period index given modulo 2^32 that lies near period g (R256). -/
def nearPeriod (g low : Nat) : Nat := ((g : Int) + (BitVec.ofNat 32 low - BitVec.ofNat 32 g).toInt).toNat

/-- What a CHANNEL_OPEN reads of the instance's address space (R306): the block, the template and, for a guaranteed channel, the initial
state. -/
def State.openReads (s : State) (e : Entry) (block template init : HostRead (List Word))
    (f : List Word → List Word → List Word → State → Ans) : Ans :=
  let n := e.ring.val
  s.reading n (entryArgs e 3 3) 144 block Ans.withBlock fun b s =>
    s.reading n (wordsAt b 60 3) (2 * fld (wordAt b 15) 0 7) template Ans.withBlock fun t s =>
      if (openReq b).coached && decide (wordAt b 66 ≠ 0#16) then s.reading n (wordsAt b 63 3) (2 * (wordAt b 66).toNat) init Ans.withBlock fun x s => f b t x s
      else f b t [] s

/-- A CHANNEL_OPEN the twin's primary has committed, applied as sent (R254): its stream, first period, coach and reckoner. -/
def channelOpenAs (e : Entry) (block template init : HostRead (List Word)) (result : Nat) (placed : Option (Nat × Nat)) (s : State) : Ans :=
  let n := e.ring.val
  s.openReads e block template init fun b t x s =>
    let r := openReq b
    let i := result / 2 ^ 32 % 2 ^ 18
    let g := nearPeriod (firstPeriodAfter ((periodMul r.period).getD 1) s.now) result
    match placed with
    | some (c, rk) =>
      let ms := r.channels i g
      let k := if (s.coach c).valid then (s.coach c).with_ ms else s.freshCoach n r ms g
      s.openApply n i c g rk r b t x k
    | none => let y := s.openEntry n g r b t; s.openCommit (s.setStream i y) n i 65536 g r b x

/-- CHANNEL_OPEN (R305, R306). -/
def channelOpenBody (e : Entry) (block template init : HostRead (List Word)) (s : State) : Ans :=
  let n := e.ring.val
  if entryArg e 6 ≠ 72#16 ∨ 2 ^ 40 ≤ entryArgs e 3 3 then Ans.field s
  else
    s.openReads e block template init fun b t x s =>
      let r := openReq b
      match s.openRefusal n r b t with
      | some (st, d) => Ans.no s st d
      | none => s.openAdmit n r b t x
/-- CHANNEL_OPEN (R306). (DESIGN CHOICE, log 91) -/
def execChannelOpen (e : Entry) (block template init : HostRead (List Word)) (s : State) : Result :=
  .next (runCmd e 0x44 false [3, 4, 5, 6] (channelOpenBody e block template init) s)

/-! ### Streams -/

/-- The refusal of a stream index an instance names (R305). -/
def State.streamRefusal (s : State) (n i : Nat) : Option (Status × Nat) :=
  let x := s.stream i
  if !x.valid then some (.badArgument, 0x70) else if x.owner ≠ n then some (.notPermitted, 0x40) else none

/-- CHANNEL_CLOSE (R305). -/
def channelCloseBody (e : Entry) (s : State) : Ans :=
  let n := e.ring.val
  let i := entryArgs e 3 2
  match s.streamRefusal n i with
  | some (st, d) => Ans.no s st d
  | none =>
    let x := s.stream i
    match x.coach with
    | none => Ans.ok (s.freeStream i)
    | some c =>
      let g := firstPeriodAfter x.mul s.now
      let k := s.coach c
      let k := { k with members := k.members.map fun m => if m.stream = i then { m with last := some (g - 1) } else m }
      { Ans.later ((s.setCoach c k).setStream i { x with closing := some (g - 1) }) (.close i) with effect := some (boundaryOf x.mul g) }
/-- CHANNEL_CLOSE (R305). -/
def execChannelClose (e : Entry) (s : State) : Result := .next (runCmd e 0x45 false [3, 4] (channelCloseBody e) s)

/-- FALLBACK_SET (R280, R305): from the coach's next boundary. -/
def fallbackSetBody (e : Entry) (s : State) : Ans :=
  let n := e.ring.val
  let i := entryArgs e 3 2
  let code := (entryArg e 5).toNat
  match s.streamRefusal n i with
  | some (st, d) => Ans.no s st d
  | none =>
    let x := s.stream i
    if 3 < code then Ans.no s .badArgument 0x32
    else Ans.ok (s.setStream i { x with nextFallback := some (code, curPeriod x.mul s.now + 1) })
/-- FALLBACK_SET (R280). -/
def execFallbackSet (e : Entry) (s : State) : Result := .next (runCmd e 0x46 false [3, 4, 5] (fallbackSetBody e) s)

/-- Octets of master key and salt of a suite (R234: RFC 3711, RFC 6188, RFC 7714). (PRESUMED, log 49) -/
def suiteSizes (suite : Nat) : Nat × Nat := [(16, 14), (16, 14), (32, 14), (32, 14), (16, 12), (32, 12)].getD suite (16, 14)

/-- KEY_SET (R234, R235, R307): the block is read from the instance's address space; the context's MKI length is the newest key's. (DESIGN CHOICE, log 206) -/
def keySetBody (e : Entry) (block : HostRead (List Word)) (s : State) : Ans :=
  let n := e.ring.val
  if 2 ^ 40 ≤ entryArgs e 3 3 then Ans.field s
  else s.reading n (entryArgs e 3 3) 64 block Ans.withBlock fun b s =>
    let w1 := wordAt b 1
    let i := (wordAt b 0).toNat + 65536 * fld w1 0 2
    let suite := fld w1 8 4
    let mkiLen := fld w1 4 3
    let leg := w1.getLsbD 14
    match s.streamRefusal n i with
    | some (st, d) => Ans.no s st d
    | none =>
      let x := s.stream i
      let c := x.ctx leg
      let ctx := tblGet {} s.gh.srtp c
      if 5 < suite ∨ 4 < mkiLen ∨ w1 &&& 0x108C#16 ≠ 0#16 ∨ wordsAt b 30 2 ≠ 0 ∨ x.srtp = false ∨ (leg && decide (x.form ≠ 1)) then Ans.field s
      else if ctx.suite ≠ none ∧ ctx.suite ≠ some suite then Ans.no s .stateConflict 0x59
      else
        let sz := suiteSizes suite
        let key : SrtpKey :=
          { key := (wordsOctets ((b.drop 7).take 16)).take sz.1, salt := (wordsOctets ((b.drop 23).take 7)).take sz.2
            mki := (wordsOctets ((b.drop 2).take 2)).take mkiLen, fromIndex := wordsAt b 4 3 }
        let put := fun (d : SrtpDir) => if w1.getLsbD 13 then { d with next := some key } else { d with current := some key }
        let ctx := { ctx with suite := some suite, mkiLen := mkiLen }
        let ctx := if w1.getLsbD 15 then { ctx with tx := put ctx.tx } else { ctx with rx := put ctx.rx }
        Ans.ok { s with gh := { s.gh with srtp := tblSet {} s.gh.srtp c ctx } }
/-- KEY_SET (R307). -/
def execKeySet (e : Entry) (block : HostRead (List Word)) (s : State) : Result := .next (runCmd e 0x48 false [3, 4, 5] (keySetBody e block) s)

/-- STREAM_SYNC (R231): every change takes effect at its commit here, so nothing is left to wait for. (DESIGN CHOICE, log 94) -/
def execStreamSync (e : Entry) (s : State) : Result := .next (runCmd e 0x49 false [] (fun s => { s := s, quiet := true }) s)

/-! ### Boards -/

/-- Board b allocated on frame f (R70), to accumulate from the period that R257 gives an admission. (DESIGN CHOICE, log 203) -/
def State.newBoard (s : State) (n b f len code : Nat) (cnt : Word) : Ans :=
  let g := BitVec.ofNat 32 (firstPeriodAfter ((periodMul code).getD 1) s.now)
  let d : BoardDesc :=
    { valid := true, owner := n, period := code, home := f, len1 := len - 1, base := Config.freeNat s.fv % 65536, expect := cnt, expectNext := cnt
      switchGen := g, firstGen := g }
  { Ans.ok ({ s with boards := tblSet {} s.boards b d }.drawn) b with placed := some (b, f) }

/-- BOARD_ALLOC (R70, R266, R268, R269, R305, R403): PACE, then the resources in table order. Until a coach contributes, the board is homed on the
first frame that takes it. (DESIGN CHOICE, log 63) -/
def boardAllocBody (e : Entry) (s : State) : Ans :=
  let n := e.ring.val
  let len := (entryArg e 3).toNat
  let cnt := entryArg e 4
  let code := (entryArg e 5).toNat
  match periodMul code with
  | none => Ans.no s .badArgument 0x30
  | some m =>
    if len = 0 ∨ 256 < len ∨ cnt = 0#16 then Ans.field s
    else if s.parking then Ans.no s .stateConflict 0x66
    else if !s.paceOk then Ans.no s .stateConflict 0x26
    else
      match s.homeFor 0 (128 * len) (len * cnt.toNat * (48 / m)) with
      | none =>
        if (List.range 24).any fun f => s.placeable f && s.storeOk f (128 * len) then Ans.no s .refusedCapacity 0x0A
        else Ans.no s .refusedCapacity 0x08
      | some f =>
        match (List.range 4096).find? fun b => !(s.board b).valid with
        | none => Ans.no s .refusedCapacity 0x0B
        | some b =>
          if (s.instAt n).share 3 < s.useOf n 3 + 1 then Ans.no s .refusedCapacity 0x06
          else s.newBoard n b f len code cnt

/-- A BOARD_ALLOC the twin's primary has committed, applied as sent (R254). -/
def boardAllocAs (e : Entry) (placed : Option (Nat × Nat)) (s : State) : Ans :=
  match placed with
  | some (b, f) => s.newBoard e.ring.val b f (entryArg e 3).toNat (entryArg e 5).toNat (entryArg e 4)
  | none => boardAllocBody e s

/-- BOARD_ALLOC (R70). (DESIGN CHOICE, log 91; DESIGN CHOICE, log 93) -/
def execBoardAlloc (e : Entry) (s : State) : Result := .next (runCmd e 0x4C false [3, 4, 5] (boardAllocBody e) s)

/-- The refusal of a board number an instance names (R305). -/
def State.boardNo (s : State) (n b : Nat) : Option (Status × Nat) :=
  let d := s.board b
  if !d.valid then some (.badArgument, 0x70) else if d.owner ≠ n then some (.notPermitted, 0x40) else none

/-- A board's expected count changed from generation g on (R78). -/
def State.setExpect (s : State) (b : Nat) (count : Word) (g : Long) : State :=
  let d := s.board b
  let cur := BitVec.ofNat 32 (curPeriod ((periodMul d.period).getD 1) s.now)
  let d2 := { d with expect := if genGe cur d.switchGen then d.expectNext else d.expect, expectNext := count, switchGen := g }
  { s with boards := tblSet {} s.boards b d2 }

/-- A BOARD_EXPECT the twin's primary has committed, applied as sent (R254). -/
def boardExpectAs (e : Entry) (s : State) : Ans :=
  Ans.ok (s.setExpect (entryArg e 3).toNat (entryArg e 4) (BitVec.ofNat 32 (entryArgs e 5 2)))

/-- BOARD_EXPECT (R78, R268, R403). (DESIGN CHOICE, log 163) -/
def boardExpectBody (e : Entry) (s : State) : Ans :=
  let n := e.ring.val
  let b := (entryArg e 3).toNat
  let g := BitVec.ofNat 32 (entryArgs e 5 2)
  match s.boardNo n b with
  | some (st, d) => Ans.no s st d
  | none =>
    let d := s.board b
    let m := (periodMul d.period).getD 1
    let cur := BitVec.ofNat 32 (curPeriod m s.now)
    if entryArg e 4 = 0#16 then Ans.field s
    else if (g - cur).toInt ≤ 0 then Ans.no s .stateConflict 0x24
    else if !s.paceOk then Ans.no s .stateConflict 0x26
    else
      let t := s.setExpect b (entryArg e 4) g
      if t.adderOk d.home 0 then Ans.ok t else Ans.no s .refusedCapacity 0x0A
/-- BOARD_EXPECT (R78). -/
def execBoardExpect (e : Entry) (s : State) : Result := .next (runCmd e 0x4D false [3, 4, 5, 6] (boardExpectBody e) s)

/-- BOARD_RELEASE (R80, R308): refused while a coach's waybill names the board; else released at its next boundary. (DEDUCED, log 95) -/
def boardReleaseBody (e : Entry) (s : State) : Ans :=
  let n := e.ring.val
  let b := (entryArg e 3).toNat
  match s.boardNo n b with
  | some (st, d) => Ans.no s st d
  | none =>
    let m := (periodMul (s.board b).period).getD 1
    if s.boardNamed b then Ans.no s .stateConflict 0x54
    else
      let t := boundaryOf m (curPeriod m s.now + 1)
      Ans.later { s with ik := { s.ik with releasing := tblInsert (tblDrop s.ik.releasing b) b t } } (.boardRelease b)
/-- BOARD_RELEASE (R80). -/
def execBoardRelease (e : Entry) (s : State) : Result := .next (runCmd e 0x4E false [3] (boardReleaseBody e) s)

/-! ### Best-effort jobs -/

/-- V of R277: the smallest tag among waiting jobs, or the last tag issued. -/
def State.beV (s : State) : Tag :=
  match (s.ik.bejobs.filter fun j => j.issued.isNone) with
  | [] => s.ik.beTag
  | j :: js => js.foldl (fun m x => if x.finish.before m then x.finish else m) j.finish

/-- A best-effort job accepted (R277): its finish tag, and its place among those that wait. -/
def beSubmitAs (e : Entry) (s : State) : Ans :=
  let n := e.ring.val
  let budget := entryArgs e 4 2
  let i := s.instAt n
  let f := (s.beV.larger i.finish).plus { num := budget * 65536, den := max 1 i.weight }
  let j : BeJob := { id := s.ik.beNext, inst := n, prog := (entryArg e 3).toNat, budget := budget, tag := entryArg e 6, finish := f }
  let s := s.setInst n { i with finish := f }
  Ans.later { s with ik := { s.ik with bejobs := s.ik.bejobs ++ [j], beNext := s.ik.beNext + 1 } } (.job j.id)

/-- BE_SUBMIT (R277, R278, R411). -/
def beSubmitBody (e : Entry) (s : State) : Ans :=
  let n := e.ring.val
  let p := (entryArg e 3).toNat
  let budget := entryArgs e 4 2
  let i := s.instAt n
  if 2048 ≤ p then Ans.field s
  else if !(s.prog n p).valid then Ans.no s .badArgument 0x70
  else if s.beMax = 0 ∨ s.beMax < budget ∨ i.limits.any (fun l => decide (l = 0)) then Ans.no s .badArgument 0x33
  else if s.parking then Ans.no s .stateConflict 0x66
  else beSubmitAs e s
/-- BE_SUBMIT (R277). -/
def execBeSubmit (e : Entry) (s : State) : Result := .next (runCmd e 0x50 false [3, 4, 5, 6] (beSubmitBody e) s)

/-- The round last begun began after the last edge. -/
def State.atRound (s : State) : Bool := decide (s.time < s.ik.round * 2 ^ 38 + s.incUnits)

/-- REKEY_START (R229): at a round, with more than 768 key slots in the stash, no re-key running and REKEY_MIN_S passed since the
last the device started itself. -/
def execRekeyStart (s : State) : Result :=
  .next (
    let gap := match s.gh.rekeySelf with | some t => usPassed t s.time (s.policy 6 * 1000000) | none => true
    if !s.rekeying && s.leads && s.atRound && decide (768 < s.gh.stash.length) && gap then s.startRekey .self else s)

/-- REKEY_DONE (R229, R230): the filled table becomes active, journaled as it was started; CLASS_REKEY completes. (DESIGN CHOICE, log 96) -/
def execRekeyDone (s : State) : Result :=
  .next (
    if !s.rekeying ∨ !s.leads ∨ s.refilled = none then s
    else
      let s := (s.finishRekey (if s.gh.rekeyAsked then .manager else .self)).decide_ .rekeyed
      match (s.instAt 0).busy with
      | some b => if b.wait = .rekey then s.complete 0 { status := .ok, tag := b.tag, op := b.op, detail := 0, result := 0 } else s
      | none => s)

end Sys2Proof.Machine
end

