-- ==== Sys2Proof/Machine/Gatehouse.lean ====
section
/-! DEFINITION. The Gatehouse's ingress (R219 to R245): disposition, reassembly, classification and policing, forwarding and the
standby buffer (R240, R379), SRTP, placement and delivery. -/
namespace Sys2Proof.Machine

/-- A count among a port's (R358). -/
def State.portCount1 (s : State) (port k n : Nat) : State := s.count (2912 + 16 * port + k) n

/-- TW_STATUS.WIRING is SHARED (R379). -/
def State.shared (s : State) : Bool := s.bit 0x0F0000 5

/-- A frame punted, counted in its instance's ledger (R224, R347). -/
def State.puntFrame (s : State) (n : Nat) (p : Punt) : State := (s.bill n lcPunts 1 p.stamp).punt n p

/-! ### PTP (R223) -/

/-- The steward pair the image names for PTP (R223). -/
def State.ptpPair (s : State) : EngId := stewardPair (s.params 12)

/-- A PTP record delivered to the stewards' queue. -/
def State.ptpDeliver (s : State) (sender stamp : Nat) (data : List Word) : State :=
  (deliver s s.ptpPair 2 (BitVec.ofNat 16 sender) stamp data).1

/-- What names a PTP message among its type's: sourcePortIdentity and sequenceId. (DEDUCED, log 109) -/
def ptpName (msg : List Byte) : Nat := beNat msg 20 12

/-- A received PTP message; the stamps of a Pdelay_Req and of a Sync are kept for their residence times. -/
def State.ptpIn (s : State) (port stamp : Nat) (msg : List Byte) : State :=
  let ty := octAt msg 0 % 16
  let s := if ty = 2 then { s with gh := { s.gh with pdelay := tblSet 0 s.gh.pdelay port stamp } }
    else if ty = 0 then { s with gh := { s.gh with syncIn := tblSet none s.gh.syncIn port (some (ptpName msg, stamp)) } }
    else s
  s.ptpDeliver (0xFFF0 + port) stamp (octetsWords msg)

/-! ### Slots (R241 to R244) -/

/-- What a slot or a delivery holds of an RTP packet: slot-header words 0 to 7 and the data area. -/
structure RtpParts where
  head : List Word
  data : List Word
  deriving DecidableEq, Repr

/-- An RTP packet as R242 lays it out; octets past its end count as 0. (DESIGN CHOICE, log 103) -/
def rtpParts (p : List Byte) : RtpParts :=
  let b0 := octAt p 0
  let cc := b0 % 16
  let xa := 12 + 4 * cc
  let xn := if b0 / 16 % 2 = 1 then 4 + 4 * beNat p (xa + 2) 2 else 0
  let pad := if b0 / 32 % 2 = 1 then octAt p (p.length - 1) else 0
  let pay := (p.drop (xa + xn)).take (p.length - (xa + xn) - pad)
  { head := [BitVec.ofNat 16 (0x8000 + octAt p 1 / 128 * 0x4000 + octAt p 1 % 128), BitVec.ofNat 16 pay.length, BitVec.ofNat 16 (beNat p 2 2)] ++
      toWords (beNat p 4 4) 2 ++ toWords (beNat p 8 4) 2 ++ [BitVec.ofNat 16 (cc * 4096 + xn / 2 % 4096)]
    data := octetsWords (fitOctets (octs p 12 (4 * cc)) (4 * cc) ++ fitOctets (octs p xa xn) xn ++ pay) }

/-- Periods from `cur` to the period that consumes a timestamp (R241, R256). -/
def Stream.aheadOf (x : Stream) (cur ts : Nat) : Int :=
  let d := (BitVec.ofNat 32 ts - x.tsAnchor).toInt
  (BitVec.ofInt 32 ((x.periodAnchor.toNat : Int) + d / (x.slotTs : Int) - (cur : Int))).toInt

/-- A frame of a JITTER or RELAY leg placed (R241 to R243). -/
def State.place_ (s : State) (i : Nat) (leg : Bool) (p : List Byte) (stamp : Nat) : State :=
  let x := s.stream i
  let cur := curPeriod x.mul stamp
  let n := x.aheadOf cur (beNat p 4 4)
  let g := ((cur : Int) + n).toNat
  let a := x.slotAt leg g
  let r := rtpParts p
  if (2 ^ x.ringLog2 : Int) ≤ n then s.discard whyEarly x.owner stamp
  else if n ≤ 0 ∨ boundaryOf x.mul g ≤ stamp then s.discard whyLate x.owner stamp
  else if s.slotHas a g then s.discard whyDup x.owner stamp
  else if 8 * x.slotUnits < r.data.length then s.discard whySmall x.owner stamp
  else (s.bill x.owner lcDram (16 + r.data.length) stamp).writeMem a (r.head ++ toWords stamp 6 ++ toWords g 2 ++ r.data)

/-- A frame of a DIRECT entry delivered (R244). -/
def State.direct (s : State) (i : Nat) (p : List Byte) (stamp : Nat) : State :=
  let x := s.stream i
  let r := rtpParts p
  let e := reckoner x.target
  if 112 < r.data.length then s.discard whyLong x.owner stamp
  else if !engInService s e ∨ (s.frameAt (frameOf x.target)).st = 3 then s.discard whyTarget x.owner stamp
  else (deliver s e 2 (BitVec.ofNat 16 i) stamp (r.head ++ r.data)).1

/-! ### Classified frames -/

/-- A frame that classification has given a stream and a leg: its port, stamp, VLAN, UDP payload, and its octets with FCS. -/
structure MediaIn where
  port : Nat
  vid : Option Nat
  stamp : Nat
  stream : Nat
  leg : Bool
  data : List Byte
  octets : Nat
  head : List Byte := []
  deriving DecidableEq, Repr

/-- RTCP, by its own entry or multiplexed (R239): 192 to 223 less the marker bit's place are 64 to 95. (PRESUMED, log 102) -/
def State.isRtcp (s : State) (m : MediaIn) : Bool :=
  let t := octAt m.data 1 % 128
  decide ((s.stream m.stream).form = 3) || (decide (64 ≤ t) && decide (t ≤ 95))

/-- The SSRC of a frame: of an RTCP packet its sender's. (PRESUMED, log 102) -/
def State.ssrcOf (s : State) (m : MediaIn) : Long := BitVec.ofNat 32 (beNat m.data (if s.isRtcp m then 4 else 8) 4)

/-- The counts of a frame classified to a stream (R347). (DEDUCED, log 112) -/
def State.billRx (s : State) (n octets t : Nat) : State := (s.bill n lcRx 1 t).bill n lcRxOctets octets t

/-- What follows policing (R232, R236, R239, R241, R244), on the primary's own frames and on forwarded ones alike. (DEDUCED, log 114; DESIGN CHOICE, log 185) -/
def State.handle (s : State) (m : MediaIn) : State :=
  let x := s.stream m.stream
  let rtcp := s.isRtcp m
  if x.ssrcChk ∧ s.ssrcOf m ≠ (if m.leg then x.ssrcB else x.ssrcA) then s.discard whySsrc x.owner m.stamp
  else
    let r := if x.srtp then s.unprotect m.stream m.leg rtcp m.data m.stamp else (s, .ok m.data)
    match r.2 with
    | .error y => r.1.discard y x.owner m.stamp
    | .ok p =>
      if rtcp then r.1.puntFrame x.owner { port := m.port, reason := 4, vid := m.vid, stream := some m.stream, stamp := m.stamp, frame := m.head ++ p }
      else if x.form = 2 then r.1.direct m.stream p m.stamp
      else r.1.place_ m.stream m.leg p m.stamp

/-- A frame policed (R233): the count of its leg's period, and whether it is beyond 2 × PKT_LIMIT. (DEDUCED, log 114) -/
def State.police (s : State) (i : Nat) (leg egress : Bool) (g : Nat) : State × Bool :=
  let key := i * 4 + (if leg then 1 else 0) + (if egress then 2 else 0)
  let p := tblGet {} s.gh.police key
  let n := if p.period = g then p.count + 1 else 1
  ({ s with gh := { s.gh with police := tblSet {} s.gh.police key { period := g, count := n } } }, decide (2 * (s.stream i).pktLimit < n))

/-- A frame held in the standby buffer (R379): 65,536 at most, the oldest dropped. -/
def State.hold (s : State) (m : MediaIn) : State :=
  let x : Standby :=
    { stamp := m.stamp, port := m.port, stream := m.stream, leg := m.leg, ssrc := s.ssrcOf m, seq := BitVec.ofNat 16 (beNat m.data 2 2)
      data := m.data, vid := m.vid, head := m.head, octets := m.octets }
  let l := s.gh.standby ++ [x]
  { s with gh := { s.gh with standby := if 65536 < l.length then l.drop 1 else l } }

/-- The primary's CUT of the next boundary, once device time has reached it (R375); admitted use that fits again lets it mirror (R373). -/
def State.sendCut (s : State) : State :=
  let i := s.tw.lastCut + 1
  if s.role = 1 ∧ boundaryOf 1 i ≤ s.now then
    let hold := s.tw.mirrorHold && !s.linkFits
    { s with tw := { s.tw with lastCut := i, mirrorHold := hold } }.mirror 5 [i]
  else s

/-- The CUTs of every boundary up to an instant, which go before a FRAME stamped at or after it (R375). -/
def State.cutsUpTo (s : State) (t : Nat) : State :=
  if s.role = 1 then (List.range (curPeriod 1 t - s.tw.lastCut)).foldl (fun s _ => s.sendCut) s else s

/-- FRAME (R240, R371): the arrival stamp, port, stream index, leg and UDP payload. (DESIGN CHOICE, log 113) -/
def State.forward (s : State) (m : MediaIn) : State :=
  (s.cutsUpTo m.stamp).mirror 4 ([m.stamp, m.port, m.stream, if m.leg then 1 else 0] ++ m.data.map BitVec.toNat)

/-- A frame that classifies to a stream (R225, R233, R240, R379). `ovr`: the frame lies beyond 60 Mpps. A device that does not lead counts
the frames its own policing discards, which no FRAME brings it (R349). (DESIGN CHOICE, log 113) -/
def State.mediaIn (s : State) (m : MediaIn) (ovr : Bool) : State :=
  let x := s.stream m.stream
  let r := s.police m.stream m.leg false (curPeriod x.mul m.stamp)
  if s.leads then
    let s := r.1.billRx x.owner m.octets m.stamp
    if ovr && (r.2 || decide (x.legs = 0)) then (s.count 3041 1).setBit 0x080101 4
    else if r.2 then s.discard whyPoliced x.owner m.stamp
    else (s.forward m).handle m
  else if !s.shared then r.1
  else if r.2 then (r.1.billRx x.owner m.octets m.stamp).discard whyPoliced x.owner m.stamp
  else r.1.hold m

/-! ### Fragments (R226) -/

/-- A frame of this device's own reception punted. A device that does not lead discards its own punts (R379), and only counts them, where
the network gives it every frame (R349). (DESIGN CHOICE, log 113) -/
def State.puntOwn (s : State) (n octets : Nat) (p : Punt) : State :=
  if s.leads || s.shared then (s.billRx n octets p.stamp).puntFrame n p else s

/-- The control port a UDP destination names (R224): its owning instance. -/
def State.ctlPort (s : State) (dst dport : Nat) : Option Nat :=
  (s.cf.ctl.find? fun c => decide (c.port = dport) && (match c.addr with | some a => decide (a = dst) | none => true)).map CtlPort.inst

/-- The datagram's octets while no gap is left: its fragments joined by offset, up to the last one's end. (DESIGN CHOICE, log 110) -/
def joinFrags (total : Nat) (frags : List (Nat × List Byte)) : Option (List Byte) :=
  let all := frags.foldl (fun o f => putOctets (fitOctets o (max o.length (f.1 + f.2.length))) f.1 f.2) ([] : List Byte)
  let covered := (List.range total).all fun i => frags.any fun f => decide (f.1 ≤ i) && decide (i < f.1 + f.2.length)
  if covered then some (all.take total) else none

/-- The octets of a reassembled datagram as punted: the first fragment's headers, of which the length, the fragment fields and the
IPv4 checksum are free, and the datagram. (DESIGN CHOICE, log 110) -/
def joinedFrame (fv : Nat) (head datagram : List Byte) : List Byte :=
  let a := l3Start head
  let free := fitOctets (Config.freeOctets fv) 8
  let h := if etherType head = 0x0800 then
      putOctets (putOctets (putOctets head (a + 2) (free.take 2)) (a + 6) (octs free 2 2)) (a + 10) (octs free 4 2)
    else putOctets (putOctets head (a + 4) (free.take 2)) (a + 42) (octs free 2 2)
  h ++ datagram

/-- Discards counted FRAG_MEDIA. -/
def State.fragMedia (s : State) (n : Nat) : State := s.count 3043 n

/-- A fragment that belongs to a datagram of these (R226). -/
def Reasm.same (r : Reasm) (ip : Ip) (ident : Nat) : Bool :=
  decide (r.src = ip.src) && decide (r.dst = ip.dst) && decide (r.ident = ident) && (r.v6 == ip.v6)

/-- The datagram's first fragment named another port, so that every fragment of it is discarded (R226). -/
def Reasm.refused (r : Reasm) : Bool := r.first && !r.ctl

/-- A datagram with one more fragment of it (R226): kept with the others until its last fragment and every octet before have come, then joined
and handed to the owner of its port. -/
def State.fragJoin (s : State) (ip : Ip) (others : List Reasm) (r : Reasm) (stamp : Nat) : State :=
  let put := fun (s : State) (l : List Reasm) => { s with gh := { s.gh with reasm := l } }
  match r.last with
  | none => put s (others ++ [r])
  | some total =>
    if !r.first then put s (others ++ [r])
    else
      match joinFrags total r.frags with
      | none => put s (others ++ [r])
      | some d =>
        let n := (s.ctlPort ip.dst (beNat d 2 2)).getD 0
        let frame := joinedFrame s.fv r.head d
        let p : Punt := { port := r.port, reason := 7, vid := if r.tagged then some r.vid else none, stream := none, stamp := stamp, frame := frame }
        (put s others).drawn.puntOwn n r.octets p

/-- A fragment received (R226). Beyond 1,024 datagrams held, and beyond 65,535 octets, it is discarded, as one is whose first fragment
named another port. (DESIGN CHOICE, log 110) -/
def State.fragment (s : State) (port : Nat) (o : List Byte) (ip : Ip) (f : Frag) (stamp octets : Nat) : State :=
  let body := octs o ip.start (ip.stop - ip.start)
  let others := s.gh.reasm.filter fun r => !r.same ip f.ident
  let put := fun (s : State) (l : List Reasm) => { s with gh := { s.gh with reasm := l } }
  let old := s.gh.reasm.find? fun r => r.same ip f.ident
  let owner := if f.off = 0 then s.ctlPort ip.dst (udpDport o ip) else none
  let new : Reasm := { src := ip.src, dst := ip.dst, ident := f.ident, v6 := ip.v6, start := stamp, first := false, ctl := false, last := none
                       frags := [], head := [], port := port, vid := (vlanId o).getD 0, tagged := (vlanId o).isSome }
  if f.off = 0 ∧ (ip.proto ≠ 17 ∨ owner = none) then
    (put s (others ++ [{ new with first := true }])).fragMedia (1 + (match old with | some r => r.frags.length | none => 0))
  else if f.off ≠ 0 ∧ (old.map Reasm.refused) = some true then s.fragMedia 1
  else if 65535 < f.off + body.length ∨ (old = none ∧ 1024 ≤ (s.gh.reasm.filter fun r => !r.refused).length) then s.fragMedia 1
  else
    let r := match old with
      | some r => if r.refused then new else r
      | none => new
    let r := { r with frags := r.frags ++ [(f.off, body)], last := if f.more then r.last else some (f.off + body.length), octets := r.octets + octets }
    let r := if f.off = 0 then { r with first := true, ctl := true, head := o.take ip.start, start := stamp } else r
    s.fragJoin ip others r stamp

/-- Datagrams whose first fragment came, or which have waited, 1 s ago (R226); of one whose first fragment named another port nothing is left
to count. -/
def State.fragExpire (s : State) : State :=
  let due := fun (r : Reasm) => decide (r.start + 2 ^ 48 ≤ s.now)
  let l := s.gh.reasm.filter due
  let s := { s with gh := { s.gh with reasm := s.gh.reasm.filter fun r => !due r } }
  l.foldl (fun s r => if r.refused then s else if r.first then s.count 3042 1 else s.fragMedia r.frags.length) s

/-! ### Disposition (R224) -/

/-- The instance of a packet's control port or stream, else the manager (R224, rows 6 and 7). -/
def State.ownerOf (s : State) (port : Nat) (o : List Byte) (ip : Ip) : Nat × Option Nat :=
  if !ip.hasUdp then (0, none)
  else
    match s.ctlPort ip.dst (udpDport o ip) with
    | some n => (n, none)
    | none =>
      match s.classify port ((vlanId o).getD 0) ip.v6 ip.dst (udpDport o ip) ip.src (udpSport o ip) with
      | some k => ((s.stream k.stream).owner, some k.stream)
      | none => (0, none)

/-- An accepted frame disposed of by the first row of *Ingress disposition* that matches it. `o` is the frame without FCS, `sfd` the
stamp of its start (R223). (DEDUCED, log 100; DEDUCED, log 101; DESIGN CHOICE, log 205) -/
def State.dispose (s : State) (port : Nat) (o : List Byte) (stamp sfd octets : Nat) (ovr : Bool) : State :=
  let et := etherType o
  let ip : Ip := if isIp o then parseIp o else {}
  let vid := vlanId o
  let punt := fun (s : State) (n reason : Nat) (stream : Option Nat) =>
    s.puntOwn n octets { port := port, reason := reason, vid := vid, stream := stream, stamp := stamp, frame := o }
  let dport := udpDport o ip
  if et = 0x88F7 then s.ptpIn port sfd (o.drop (l3Start o))
  else if isIp o ∧ ip.hasUdp ∧ ip.frag = none ∧ (dport = 319 ∨ dport = 320) then s.ptpIn port sfd (udpPayload o ip)
  else if et = 0x0806 ∨ (isIp o ∧ !ip.bad ∧ ((!ip.v6 ∧ ip.proto = 1) ∨ (ip.v6 ∧ ip.proto = 58))) then punt s 0 5 none
  else if !isIp o then punt s 0 6 none
  else if ip.bad ∨ ip.sumBad then s.portCount1 port 9 1
  else if ip.opts ∨ ip.ext then
    let w := s.ownerOf port o ip
    punt s w.1 (if ip.v6 then 2 else 1) w.2
  else
    match ip.frag with
    | some f => s.fragment port o ip f stamp octets
    | none =>
      if ip.proto ≠ 17 then punt s 0 6 none
      else if !ip.hasUdp ∨ !udpOk o ip then s.portCount1 port 10 1
      else
        match s.ctlPort ip.dst dport with
        | some n => punt s n 3 none
        | none =>
          match s.classify port (vid.getD 0) ip.v6 ip.dst dport ip.src (udpSport o ip) with
          | some k =>
            s.mediaIn { port := port, vid := vid, stamp := stamp, stream := k.stream, leg := k.leg, data := udpPayload o ip, octets := octets
                        head := o.take (ip.start + 8) } ovr
          | none => s.portCount1 port 11 1

/-- Media wire time of a frame from its start-of-frame delimiter to its last bit, in device units. -/
def State.wireUnits (s : State) (octets : Nat) : Nat := octets * 8 * 2 ^ 48 / (s.portRate * 10 ^ 9)

/-- A frame's octets, with FCS, end at a port (R221 to R224). (DESIGN CHOICE, log 111) -/
def State.frameIn (s : State) (port : Nat) (o : List Byte) (ovr : Bool) : State :=
  let (t, s) := s.readTime
  let s := (s.portCount1 port 0 1).portCount1 port 1 o.length
  match s.macReason port o with
  | some k => s.portCount1 port k 1
  | none => s.dispose port (o.take (o.length - 4)) t (t - s.wireUnits o.length) o.length ovr

end Sys2Proof.Machine
end

