-- ==== Sys2Proof/Machine/Departure.lean ====
section
/-! DEFINITION. The departure board (R246 to R250, R389): entries, frames as built, release, SHADOW, and digests (R381). -/
namespace Sys2Proof.Machine

/-! ### Frames (R250) -/

/-- The template's octets. -/
def Stream.tmplOctets (x : Stream) : List Byte := wordsOctets (x.tmpl.take x.templateWords)

/-- A group of the template is uncorrectable (R250, R462). -/
def State.tmplBad (s : State) (x : Stream) : Bool := (List.range x.templateWords).any fun i => isBad s (x.template + i)

/-- Where a template's UDP header begins. -/
def udpStart (o : List Byte) : Nat := l3Start o + (if etherType o = 0x86DD then 40 else 20)

/-- The IP lengths, the IPv4 header checksum and the UDP length and checksum set (R250). (DEDUCED, log 106) -/
def fixHeaders (o : List Byte) : List Byte :=
  let a := l3Start o
  let u := udpStart o
  let v6 := decide (etherType o = 0x86DD)
  let n := o.length - u
  let o := putOctets (putOctets o (u + 4) (beOctets n 2)) (u + 6) [0#8, 0#8]
  let o :=
    if v6 then putOctets o (a + 4) (beOctets n 2)
    else
      let o := putOctets (putOctets o (a + 2) (beOctets (o.length - a) 2)) (a + 10) [0#8, 0#8]
      putOctets o (a + 10) (beOctets (onesCheck (octs o a 20)) 2)
  let c := onesCheck (pseudoHeader v6 (addrOctets o v6) n ++ o.drop u)
  putOctets o (u + 6) (beOctets (if c = 0 then 65535 else c) 2)

/-- The uncorrectable words of an entry's payload (R381, R462). -/
def State.payloadBad (s : State) (d : Dep) : List Nat :=
  match d.payload with
  | some a => s.badWords a ((d.len + 1) / 2)
  | none => []

/-- The octets an entry names; what is sent for an uncorrectable word of them is free. (DESIGN CHOICE, log 196) -/
def State.payloadOf (s : State) (d : Dep) : List Byte :=
  match d.payload with
  | some a =>
    (wordsOctets ((List.range ((d.len + 1) / 2)).map fun i => if isBad s (a + i) then Config.poisonWord (a + i) else s.readMem (a + i))).take d.len
  | none => d.data

/-- The RTP header of an entry: the template's, with marker, sequence number and timestamp. -/
def Dep.rtpHeader (d : Dep) (h : List Byte) : List Byte :=
  putOctets (putOctets h 1 [BitVec.ofNat 8 (octAt h 1 % 128 + if d.mark then 128 else 0)]) 2 (beOctets d.seq.toNat 2 ++ beOctets d.ts.toNat 4)

/-- An entry's frame, from destination address to the last octet before FCS (R250), with the send state after it. (DESIGN CHOICE, log 107) -/
def State.buildFrame (s : State) (d : Dep) : State × Except Why (List Byte) :=
  let x := s.stream d.stream
  let pay := s.payloadOf d
  if d.kind = 2 then (s, .ok pay)
  else if s.tmplBad x then (s, .error whyTemplate)
  else
    let t := x.tmplOctets
    let u := udpStart t + 8
    let body := if d.kind = 0 then d.rtpHeader (octs t u 12) ++ pay else pay
    if 9212 < u + body.length then (s, .error whyOversize)
    else
      let r := s.protectIf d.stream d.leg (decide (d.kind = 1)) d.seq.toNat body d.at_
      match r.2 with
      | .error y => (r.1, .error y)
      | .ok p => (r.1, .ok (fixHeaders (t.take u ++ p)))

/-- An entry's frame, or the discard of R249 and R250 it meets at its RELEASE. -/
def State.depFrame (s : State) (d : Dep) : State × Except Why (List Byte) :=
  if d.lost ∨ !(s.stream d.stream).valid then (s, .error whyStale)
  else
    let r := s.buildFrame d
    match r.2 with
    | .ok o => if 9212 < o.length then (s, .error whyOversize) else r
    | .error _ => r

/-- A frame with its FCS, as it crosses the wire. (DESIGN CHOICE, log 107) -/
def withFcs (o : List Byte) : List Byte := o ++ leOctets (fcs32 o).toNat 4

/-! ### PTP on egress (R223, R331) -/

/-- Where the PTP message of a frame begins, of Ethernet or of UDP port 319; and whether it is of UDP over IPv6 or IPv4. (DEDUCED, log 108) -/
def ptpStart (o : List Byte) : Option Nat :=
  if etherType o = 0x88F7 then some (l3Start o)
  else
    let ip : Ip := if isIp o then parseIp o else {}
    if ip.hasUdp && ip.frag.isNone && decide (udpDport o ip = 319) then some (ip.start + 8) else none

/-- A value added to correctionField, at octet 8 of the message. (DEDUCED, log 109) -/
def addCorrection (o : List Byte) (a n : Nat) : List Byte := putOctets o (a + 8) (beOctets (beNat o (a + 8) 8 + n) 8)

/-- The UDP checksum corrected by the two trailing pad octets (IEEE 1588-2019, Annexes E and F): they take up what the message's
other octets changed by. A checksum of 0 checks nothing. -/
def correctPad (old new : List Byte) (ip : Ip) : List Byte :=
  let n := beNat old (ip.start + 4) 2
  let p := ip.start + n - 2
  let sum := fun (o : List Byte) => onesSum (octs o ip.start n)
  let keep := putOctets new p [0#8, 0#8]
  if n < 10 then new else putOctets keep p (beOctets ((sum old + 2 * 65535 - sum keep) % 65535) 2)

/-- A PTP event message as it leaves at stamp t (R223, R331): a one-step message's fields written, the residence time of a Sync or a
Pdelay_Req that came in added, or a record for the stewards. (DEDUCED, log 109) -/
def State.ptpOut (s : State) (port : Nat) (o : List Byte) (t : Nat) : State × List Byte :=
  match ptpStart o with
  | none => (s, o)
  | some a =>
    let ty := octAt o a % 16
    let twoStep := decide (octAt o (a + 6) / 2 % 2 = 1)
    let fix := fun (n : List Byte) => if etherType o = 0x88F7 then n else correctPad o n (parseIp o)
    if 3 < ty then (s, o)
    else if ty = 0 ∧ !twoStep then
      let p := dtToPtp t
      let n := putOctets o (a + 34) (beOctets p.1 6 ++ beOctets p.2.1 4)
      let held := s.gh.syncIn.findSome? fun x =>
        match x.2 with
        | some (name, t0) => if name = ptpName (o.drop a) then some (residence (t - t0)) else none
        | none => none
      (s, fix (addCorrection n a (p.2.2 + held.getD 0)))
    else if ty = 3 ∧ !twoStep then
      match tblFind s.gh.pdelay port with
      | some t0 => (s, fix (addCorrection o a (residence (t - t0))))
      | none => (s, o)
    else (s.ptpDeliver (0xFFF8 + port) t [BitVec.ofNat 16 ty, BitVec.ofNat 16 (beNat o (a + 30) 2)], o)

/-! ### Sending (R248) -/

/-- The octets a frame holds its port for, with preamble, start-of-frame delimiter, FCS and inter-packet gap. (DEDUCED, log 108) -/
def wireOctets (o : List Byte) : Nat := o.length + 24

/-- An entry is of an admitted stream: KIND 0 of a stream with a coach. -/
def State.isAdmitted (s : State) (d : Dep) : Bool := decide (d.kind = 0) && (s.stream d.stream).coach.isSome

/-- The next RELEASE of an admitted frame on a port after t. -/
def State.nextAdmitted (s : State) (port t : Nat) : Option Nat :=
  (s.gh.board.filter fun d => s.isAdmitted d && decide (d.port = port) && decide (t < d.release)).foldl (fun m d =>
    match m with
    | some n => some (min n d.release)
    | none => some d.release) none

/-- A frame that waits may start on its port now: a best-effort frame leaves 20 ns before the next admitted frame's RELEASE. -/
def State.mayStart (s : State) (r : Ready) : Bool :=
  !tblGet false s.gh.portBusy r.port && !s.tw.gateClosed && !s.pw.scanTaken &&
    (r.admitted ||
      match s.nextAdmitted r.port s.now with
      | some n => decide (s.now + s.wireUnits (wireOctets r.frame) + 20 * 2 ^ 48 / 10 ^ 9 ≤ n)
      | none => true)

/-- The order of release (R248): RELEASE, port, stream index, arrival. -/
def releaseKey (release port stream order : Nat) : List Nat := [release, port, stream, order]

/-- Lists of numbers in lexicographic order. -/
def keyLt : List Nat → List Nat → Bool
  | a :: l, b :: m => decide (a < b) || (decide (a = b) && keyLt l m)
  | _, _ => false

/-- The first of a list by a key. -/
def firstBy {α : Type} (key : α → List Nat) : List α → Option α
  | [] => none
  | a :: l =>
    match firstBy key l with
    | some b => if keyLt (key b) (key a) then some b else some a
    | none => some a

/-- A frame leaves its port (R223, R248): its first bit crosses now, and the port is busy until it has gone. (DESIGN CHOICE, log 117) -/
def State.sendReady (s : State) (r : Ready) : State :=
  let (t, s) := s.readTime
  let q := if r.admitted then (s, r.frame) else s.ptpOut r.port r.frame t
  let o := withFcs q.2
  let s := (q.1.portCount1 r.port 2 1).portCount1 r.port 3 o.length
  let gh := { s.gh with portBusy := tblSet false s.gh.portBusy r.port true, waiting := s.gh.waiting.filter fun x => x.order != r.order }
  { s with gh := gh }.send (.frame r.port o)

/-- The frames that may start on a port start: the first in order, admitted ones before others. (DESIGN CHOICE, log 117) -/
def State.runPort (s : State) (port : Nat) : State :=
  match firstBy (fun r => (if r.admitted then 0 else 1) :: releaseKey r.release r.port r.stream r.order)
      (s.gh.waiting.filter fun r => decide (r.port = port) && s.mayStart r) with
  | some r => s.sendReady r
  | none => s

/-- The board sends an entry of this RELEASE (R249, R389, R392). (DESIGN CHOICE, log 117) -/
def State.boardSends (s : State) (release : Nat) : Bool :=
  match s.tw.handover with
  | some h => if s.leads then decide (release < h) else decide (s.role = 2) && decide (h ≤ release)
  | none => s.leads && !s.tw.shadow

/-- Kept entries older than 500 µs go (R389). -/
def State.keptFresh (s : State) : List Kept := s.gh.kept.filter fun k => decide (s.now ≤ k.release + usUnits 500)

/-- An entry's RELEASE has come (R248 to R250): the frame goes to its port, or is discarded, as SHADOW on a device that does not
send. The board counts the entry now, whatever the port's state (R347). (DESIGN CHOICE, log 117) -/
def State.release (s : State) (d : Dep) : State :=
  let s := { s with gh := { s.gh with board := s.gh.board.filter fun x => x.order != d.order } }
  let s := s.groupsFound (s.payloadBad d)
  let r := s.depFrame d
  match r.2 with
  | .error y => r.1.discard y d.inst d.at_
  | .ok o =>
    let s := (r.1.bill d.inst lcTx 1 d.at_).bill d.inst lcTxOctets (o.length + 4) d.at_
    let s := s.bill d.inst lcDram ((d.len + 1) / 2) d.at_
    if s.boardSends d.release then
      let w : Ready := { release := d.release, port := d.port, stream := d.stream, order := d.order, admitted := s.isAdmitted d, frame := o }
      { s with gh := { s.gh with waiting := s.gh.waiting ++ [w] } }.runPort d.port
    else
      let k : Kept := { release := d.at_, port := d.port, stream := d.stream, frame := o }
      { s.count 3057 1 with gh := { s.gh with kept := s.keptFresh ++ [k] } }

/-- The entry the board releases next, of those whose RELEASE lies before the next edge. It is counted then whatever its port's state
(R347): behind a closed gate (R386) or with the balls taken (R480) its frame waits for its port. (DESIGN CHOICE, log 7) -/
def State.dueDep (s : State) : Option Dep :=
  firstBy (fun d => releaseKey d.release d.port d.stream d.order)
    (s.gh.board.filter fun d => d.late || decide (d.release < s.time + s.incUnits))

/-! ### Arrival at the board (R233, R246, R247) -/

/-- Entries on the board that no stream's reservation covers. (DEDUCED, log 116) -/
def State.loose (s : State) : Nat := (s.gh.board.filter fun d => !s.isAdmitted d).length

/-- A free unreserved entry (R247). -/
def State.looseRoom (s : State) : Bool := decide (departUse s.streamList + s.loose < 4194304)

/-- An entry reaches the board: late ones go as soon as the port allows, are counted and set GH_EVT.DEPART_LATE (R247). (DESIGN CHOICE, log 115) -/
def State.boardAdd (s : State) (d : Dep) : State :=
  let t := s.now
  let late := decide (d.release ≠ 0) && decide (d.release < t + usUnits 2)
  let d := { d with order := s.gh.depNext, at_ := max d.release t, late := late }
  let s := { s with gh := { s.gh with board := s.gh.board ++ [d], depNext := s.gh.depNext + 1 } }
  if late then (s.discard whyDepart d.inst d.at_).setBit 0x080101 5 else s

/-- A departure entry's words (R246). (DEDUCED, log 116) -/
def depOf (w : List Word) (inst : Nat) (port : Nat → Nat) : Dep :=
  let i := (wordAt w 7).toNat + 65536 * fld (wordAt w 8) 0 2
  { kind := fld (wordAt w 0) 13 2, mark := (wordAt w 0).getLsbD 12, leg := (wordAt w 0).getLsbD 11, release := wordsAt w 1 6, at_ := 0, stream := i
    payload := some (wordsAt w 9 3), data := [], len := (wordAt w 12).toNat, seq := wordAt w 13, ts := BitVec.ofNat 32 (wordsAt w 14 2), inst := inst
    port := port i, order := 0 }

/-- An entry of a best-effort job's list: no period gives its KIND 0 a RELEASE, so it goes as soon as the port allows. (DESIGN CHOICE, log 115; DEDUCED, log 116) -/
def State.looseEntry (s : State) (n : Nat) (w : List Word) : State :=
  let d := depOf w n fun i => (s.stream i).egressPort
  let d := if d.kind = 0 then { d with release := 0 } else d
  if !(wordAt w 0).getLsbD 15 ∨ d.kind = 3 ∨ s.looseRoom = false ∨ s.now + 2 ^ 48 < d.release then s
  else if d.kind = 0 then
    let r := s.police d.stream d.leg true (curPeriod (s.stream d.stream).mul s.now)
    if r.2 then r.1.discard whyPoliced n s.now else r.1.boardAdd d
  else s.boardAdd d

/-- One entry of the list of a coach's period (R233, R246, R247): VALID, KIND 0 policed and given its RELEASE; another kind only
with a free unreserved entry and no more than 1 s ahead. (DESIGN CHOICE, log 115) -/
def State.listEntry (s : State) (k : Coach) (g : Nat) (w : List Word) : State :=
  let d := depOf w k.inst fun i => (s.stream i).egressPort
  if !(wordAt w 0).getLsbD 15 ∨ d.kind = 3 then s
  else if d.kind = 0 then
    let r := s.police d.stream d.leg true g
    let d := { d with release := boundaryOf k.mul g + (s.stream d.stream).rel }
    if r.2 then r.1.discard whyPoliced k.inst (max d.release s.now) else r.1.boardAdd d
  else if !s.looseRoom ∨ s.now + 2 ^ 48 < d.release then s
  else s.boardAdd d

/-! ### Digests (R381) -/

/-- The frames of a period's KIND 0 entries in the order of release, built without advancing the device. -/
def State.periodFrames (s : State) : Nat → List Dep → List Byte
  | 0, _ => []
  | n + 1, l =>
    match firstBy (fun d => releaseKey d.release d.port d.stream d.order) l with
    | none => []
    | some d =>
      let r := s.depFrame d
      let o := match r.2 with | .ok o => o | .error _ => []
      o ++ r.1.periodFrames n (l.filter fun x => x.order != d.order)

/-- The digest of a coach's period over its entries (R381). -/
def State.digestOf (s : State) (c g : Nat) (l : List Dep) : List Word :=
  let j := (s.coach c).ended
  sha256First8 (leOctets c 2 ++ leOctets g 4 ++ leOctets j.charge 4 ++ leOctets (if j.fallback then 1 else 0) 1 ++ s.periodFrames l.length l)

/-- The digest formed when a period's list has arrived, with its marks; it waits for the twin's until 5 ms after the release
offset (R381, R382). -/
def State.formDigest (s : State) (c g : Nat) (l : List Dep) : State :=
  let k := s.coach c
  let j := k.ended
  let e := j.err || l.any fun d => s.tmplBad (s.stream d.stream) || decide (s.payloadBad d ≠ [])
  let d : Digest :=
    { coach := c, period := g, words := s.digestOf c g l, host := j.host, watchdog := j.watchdog, err := e, dbg := j.dbg || s.bit 0x3C0000 15, late := decide (k.lateCut = some g)
      due := boundaryOf k.mul g + usUnits (k.rel + 5000) }
  if s.compares ∧ !k.unprotected ∧ !k.holdDigest ∧ k.compareFrom ≤ g then { s with tw := { s.tw with digests := s.tw.digests ++ [d] } }.settleDigests else s

/-- The list of a coach's period reaches the board, and its digest is formed. -/
def State.listArrive (s : State) (c g : Nat) (l : List (List Word)) : State :=
  let k := s.coach c
  let n := s.gh.depNext
  let s := l.foldl (fun s w => s.listEntry k g w) s
  s.formDigest c g (s.gh.board.filter fun d => decide (d.kind = 0) && decide (n ≤ d.order))

end Sys2Proof.Machine
end

