-- ==== Sys2Proof/Machine/GatehouseCmds.lean ====
section
/-! DEFINITION. The commands of the Gatehouse (R220 to R250, R305, R379, R457), memory scrubbing (R215, R462, R463) and the ATS
invalidation (R313). -/
namespace Sys2Proof.Machine

/-- The Gatehouse has power. -/
def State.ghOn (s : State) : Bool := s.domainOn 28

/-- FRAME_RECEIVE (R221 to R245): a frame, from destination address to FCS, ends at a port whose link is up. `over`: it comes beyond
60 Mpps (R225). (DESIGN CHOICE, log 111) -/
def execFrameReceive (port : Fin 8) (octets : List Byte) (ovr : Bool) (s : State) : Result :=
  .next (if s.ghOn && decide (port.val < s.portCount) && s.bit (0x080010 + port.val) 15 then s.frameIn port.val octets ovr else s)

/-- FRAG_TIMEOUT (R226). -/
def execFragTimeout (s : State) : Result := .next s.fragExpire

/-- The PHYs each port mode supports, by their codes in GH_PORT_STATUS (R219). -/
def modePhys (mode : Nat) : List Nat :=
  match mode with
  | 0 => [6, 7]
  | 1 => [3, 4, 5]
  | 2 => [2]
  | 3 => [1]
  | _ => []

/-- A port's link can come up with a PHY (R219, R220): one of its mode's, which with AN = 1 the image enables, with AN = 0 the image's
forced one. (DESIGN CHOICE, log 46) -/
def State.phyUsable (s : State) (p : Nat) : Bool :=
  (modePhys (fld (s.reg 0x080000) 0 3)).contains p &&
    (if s.bit 0x080000 3 then decide (s.params 14 / 2 ^ p % 2 = 1) else decide (s.params 15 % 8 = p))

/-- PORT_LINK_CHANGE (R219, R220, GH_PORT_STATUS): a port's link comes up with a PHY it may use, or goes down; LINK_CHG on every change
of LINK. A port the mode does not provide is absent. -/
def execPortLinkChange (port : Fin 8) (phy : Option (Fin 8)) (s : State) : Result :=
  .next (
    let off := 0x080010 + port.val
    let up := phy.isSome
    let usable := match phy with | some p => s.phyUsable p.val | none => true
    if !s.ghOn || !decide (port.val < s.portCount) || !usable then s
    else
      let w := s.reg off
      let v := (match phy with | some p => 0xE000 + p.val * 1024 | none => 0) + w.toNat % 2
      let s1 := s.setReg off (BitVec.ofNat 16 v)
      if w.getLsbD 15 = up then s1 else (s1.setBit off 0).setBit 0x080101 0)

/-- TABLE_REBUILD (R250, R457): `lost` an uncorrectable error takes the item from its table; else the stewards have rebuilt it from
their copy. (DESIGN CHOICE, log 119) -/
def execTableRebuild (item : GhItem) (lost : Bool) (s : State) : Result :=
  .next (
    match item with
    | .key p => match tblGet none s.gh.keys p with
      | some x => { s with gh := { s.gh with keys := tblSet none s.gh.keys p (some { x with absent := lost }) } }
      | none => s
    | .stash i =>
      { s with gh := { s.gh with stash := ((List.range s.gh.stash.length).zip s.gh.stash).map fun q => if q.1 = i then { q.2 with absent := lost } else q.2 } }
    | .departure n => { s with gh := { s.gh with board := s.gh.board.map fun d => if d.order = n then { d with lost := lost } else d } }
    | .template i =>
      let x := s.stream i
      if !x.valid then s
      else if lost then s.markBad x.template
      else s.writeMem (x.template / 4 * 4) (List.replicate (x.template % 4) 0#16 ++ x.tmpl ++ List.replicate 3 0#16))

/-- The anchors that the job of coach c moves, of its own streams, from the coach's next boundary on (R232). (DESIGN CHOICE, log 121) -/
def State.moveAnchors (s : State) (c : Nat) (anchors : List (Nat × Long × Long)) : State :=
  anchors.foldl (fun s a =>
    if (s.stream a.1).coach = some c then
      { s with gh := { s.gh with streams := tblSet {} s.gh.streams a.1 { s.stream a.1 with nextAnchor := some a.2 } } }
    else s) s

/-- DEPARTURE_SUBMIT (R246, R247, R281, R381, R460): the list of a coach's period reaches the board with the job's write-back;
a fallback's list (none) is what R281 gives, and replaces whatever the job wrote. With no coach, a best-effort job's list. The anchors
that the job has moved through the kernel's anchor service take effect at the next boundary (R232). (DESIGN CHOICE, log 121) -/
def execDepartureSubmit (coach : Option Nat) (inst : Nat) (list : DepList) (s : State) : Result :=
  .next (
    match coach with
    | none => (list.entries.getD []).foldl (fun s w => s.looseEntry inst w) s
    | some c =>
      let k := s.coach c
      match k.lastIssued with
      | none => s
      | some g =>
        if !k.valid ∨ k.listed = some g ∨ k.issued = some g then s
        else
          let s1 := s.modCoach c fun k => { k with listed := some g, fbList := none }
          match list.entries, k.fbList with
          | some l, none => if k.fellBack = some g then s else (s1.moveAnchors c list.anchors).listArrive c g l
          | none, some (h, l) => if h = g then s1.listArrive c g l else s
          | _, _ => s)

/-- DEPARTURE_RELEASE (R248 to R250): the next entry whose RELEASE has come. -/
def execDepartureRelease (s : State) : Result :=
  .next (match s.dueDep with
    | some d => s.release d
    | none => s)

/-- FRAME_TRANSMITTED (R248): a port has sent a frame; the next that waits for it may start. -/
def execFrameTransmitted (port : Fin 8) (s : State) : Result :=
  .next ({ s with gh := { s.gh with portBusy := tblSet false s.gh.portBusy port.val false } }.runPort port.val)

/-- STANDBY_EXPIRED (R379): held frames are discarded 500 µs after they came, and counted. -/
def execStandbyExpired (s : State) : Result :=
  .next (
    let old := fun (x : Standby) => decide (x.stamp + usUnits 500 ≤ s.now)
    let n := (s.gh.standby.filter old).length
    { s with gh := { s.gh with standby := s.gh.standby.filter fun x => !old x } }.count 3181 n)

/-- SEND_FRAME (R246, R247, R305): the frame is read from the instance's address space. -/
def sendFrameBody (e : Entry) (frame : HostRead (List Byte)) (s : State) : Ans :=
  let n := e.ring.val
  let w := entryArg e 3
  let kind := fld w 13 2
  let i := entryArgs e 4 2
  let rel := entryArgs e 10 6
  let len := (entryArg e 9).toNat
  if w &&& 0x97FF#16 ≠ 0#16 ∨ kind = 0 ∨ kind = 3 ∨ 2 ^ 40 ≤ entryArgs e 6 3 then Ans.field s
  else
    match s.streamRefusal n i with
    | some (st, d) => Ans.no s st d
    | none =>
      if s.now + 2 ^ 48 < rel then Ans.no s .badArgument 0x31
      else if !s.looseRoom then Ans.no s .refusedCapacity 0x12
      else
        s.reading n (entryArgs e 6 3) len frame Ans.withOctets fun o s =>
          Ans.ok (s.boardAdd
            { kind := kind, mark := false, leg := w.getLsbD 11, release := rel, at_ := 0, stream := i, payload := none, data := o.take len, len := len
              seq := 0#16, ts := 0#32, inst := n, port := (s.stream i).egressPort, order := 0 })
/-- SEND_FRAME (R305). -/
def execSendFrame (e : Entry) (frame : HostRead (List Byte)) (s : State) : Result :=
  .next (runCmd e 0x51 false ((wRange 3 15)) (sendFrameBody e frame) s)

/-! ### Scrubbing (R215, R458, R462, R463) -/

/-- A group found uncorrectable (R462, R463, R464): poisoned and recorded, a coach's to be zeroed on a SOLO device; a group in free memory is
rewritten with zeros. -/
def State.groupBad (s : State) (pa : Nat) (free : Bool) : State :=
  let own := s.stateOwner pa
  let s := (s.markBad pa).internalError false
  let s := s.record { severity := 1, unit := 5, code := 2, source := dramChannel pa, coach := own.getD 0xFFFF, addr := pa
                      period := match own with | some c => (s.coach c).ended.period % 2 ^ 32 | none => 0 }
  let s := s.groupFound pa
  if own.isNone && free && !inGatehouse s pa then s.writeMem (pa / 4 * 4) (List.replicate 4 0#16) else s

/-- A DRAM group checked (R213, R215, R457, R462): nothing found, an error corrected and written back, a transfer corrected, or an
uncorrectable error. `free`: the allocator holds the group free. In a check row there are no words to poison. (DESIGN CHOICE, log 177) -/
def State.dramChecked (s : State) (a : Nat) (found : Finding) (free : Bool) : State :=
  let ch := dramChannel a
  let off := 0x100001 + ch * 0x1000
  match found with
  | .clean => s
  | .corrected => ((s.setBit off 0).count (mcCtr ch + 4) 1).internalError true
  | .link => ((s.setBit off 2).count (mcCtr ch + 6) 1).internalError true
  | .uncorrectable | .both => if dramBacked s a then s.groupBad a free else s.mcUncorr a

/-- A word recorded as corrected (R453, R457, R464). -/
def State.recordCorrected (s : State) (unit source pa : Nat) : State :=
  (s.record { severity := 0, unit := unit, code := 1, source := source, addr := pa }).internalError true

/-- A word of memory checked (R453, R457, R458): a frame's corrected errors are counted; an uncorrectable word of a local or
frame store reads so until it is written; one of a steward memory is repaired from the partner copy, and in both copies is the
pair's checkstop. -/
def State.wordChecked (s : State) (a : Nat) (found : Finding) (free : Bool) : State :=
  let sram (f : Nat) : State :=
    if !frameOn s f then s
    else match found with
      | .corrected => s.corrected f
      | .uncorrectable => (s.markBad a).internalError false
      | _ => s
  match regionOf a with
  | .dram => if dramRow a < 2 ^ rowsLog2 s (dramChannel a) ∧ rowsLog2 s (dramChannel a) ≠ 0 ∧ s.domainOn 30 = true then s.dramChecked a found free else s
  | .frame f => sram f
  | .loc r => sram (r / 8)
  | .stew k =>
    match found with
    | .corrected | .uncorrectable => s.recordCorrected 1 (k / 2) a
    | .both => if s.domainOn (24 + k / 2) then s.pairCheckstop (k / 2) else s
    | _ => s
  | _ => s

/-- A block of a Counting Board bank checked (R73, R81, R457). -/
def State.bankChecked (s : State) (board : Nat) (odd : Bool) (blk : Nat) (found : Finding) : State :=
  let d := s.board board
  let key := blockKey board odd.toNat blk
  let b := tblGet {} s.blocks key
  if !d.valid || decide (d.len1 < blk) then s
  else match found with
    | .corrected => (s.cbEvent 4 board).internalError true
    | .uncorrectable =>
      let s := (if b.poison then s else s.count 3154 1).internalError false
      { s with blocks := tblSet {} s.blocks key { b with poison := true, lost := true } }.cbEvent 5 board
    | _ => s

/-- A word of an engine's data cache checked (R457, R458, R510): an uncorrectable error in a clean line drops it, to be filled again; in a
dirty line the word reads as uncorrectable, and its write-back raises a machine check. In a steward's dirty line lockstep decides
it (R460). (DEDUCED, log 32) -/
def State.dlineChecked (s : State) (e : EngId) (pa : Nat) (found : Finding) : State :=
  let line := lineOf pa
  let i := pa % 16
  match (s.engAt e).dcache.find? fun d => d.line == line with
  | none => s
  | some d =>
    match found with
    | .corrected => if isReckoner e then s.corrected (engFrame e) else s
    | .uncorrectable =>
      if d.dirty then
        if isReckoner e then
          (s.modEng e fun x => { x with dcache := x.dcache.map fun c =>
            if c.line == line then { c with bad := i :: c.bad.filter (· ≠ i), own := i :: c.own.filter (· ≠ i) } else c }).internalError false
        else s
      else (s.modEng e fun x => { x with dcache := x.dcache.filter fun c => c.line != line }).recordCorrected (unitOf e).1 (unitOf e).2 pa
    | _ => s

/-- A line of an engine's instruction cache checked (R457): any error invalidates it, to be fetched again. -/
def State.ilineChecked (s : State) (e : EngId) (line : Nat) (found : Finding) : State :=
  if (found = .corrected ∨ found = .uncorrectable) ∧ ((s.engAt e).icache.any fun d => d.line == line) = true then
    (s.modEng e fun x => { x with icache := x.icache.filter fun d => d.line != line }).recordCorrected (unitOf e).1 (unitOf e).2 (line * 16)
  else s

/-- A parity error in an engine's register file, store buffer or TLB (R457, R459): machine check PARITY at its point, where a host-window
load that is outstanding is given up. A steward
pair's copies then differ, which lockstep decides (R460). -/
def State.parityError (s : State) (e : EngId) : State :=
  let at_ := match (s.engAt e).run with
    | .running | .waiting | .hostWait _ => true
    | _ => false
  if isReckoner e && engPowered s e && at_ then
    takeExc (s.internalError false) e (pointLen s e) (.mc 5 none)
  else s

/-- An entry of the journal ring found uncorrectable is lost (R450, R457). -/
def State.journalLost (s : State) (i : Nat) : State :=
  if s.jr.jring.length ≤ i then s
  else
    let b := s.backlog
    let lost := (s.reg 0x038006).toNat
    let s := { s with jr := { s.jr with jring := s.jr.jring.eraseIdx i } }
    let s := if i < b then s.setReg 0x038000 (putFld (s.reg 0x038000) 0 15 (b - 1)) else s
    ((s.setReg 0x038006 (BitVec.ofNat 16 (min 65535 (lost + 1)))).setBit 0x038001 0).internalError false

/-- SCRUB (R215, R453, R457 to R462): a memory is checked, by scrubbing or as an access reads it, and what it finds is answered. `pass`:
the channel's scrub pass ends with this group. A ledger with an error in one copy is repaired from the other; a memory of one
copy that finds an error finds it in all it has. (DEDUCED, log 32; DESIGN CHOICE, log 119) -/
def execScrub (at_ : Checked) (found : Finding) (free pass : Bool) (s : State) : Result :=
  let one := if found = .both then .uncorrectable else found
  .next (match at_ with
    | .word pa =>
      let a := pa.toNat
      let ch := dramChannel a
      let t := s.wordChecked a (if (regionOf a matches .stew _) then found else one) free
      if pass && decide (regionOf a = .dram) && decide (rowsLog2 s ch ≠ 0) && s.domainOn 30 then
        (t.setBit (0x100001 + ch * 0x1000) 3).count (mcCtr ch + 7) 1
      else t
    | .bank board odd blk => s.bankChecked board odd blk one
    | .dcache e pa => s.dlineChecked e pa one
    | .icache e line => s.ilineChecked e line one
    | .regs e => if one = .uncorrectable then s.parityError e else s
    | .ledger n => if found = .both then s.ledgerLost n.val else s
    | .journal i => if one = .uncorrectable then s.journalLost i else s)

/-- ATS_INVALIDATION (R218, R313): every matching entry dropped; completed once no host-window load that used one, or that waits for
the translation of such a page, is outstanding. -/
def execAtsInvalidation (itag : Fin 32) (pasid : Nat) (page pages : Nat) (s : State) : Result :=
  .next (
    if s.fn.perstLow then s
    else
      let n := if pasid = 0 then 0 else ((s.inst.find? fun x => decide (x.2.st ≠ .free) && decide (x.2.pasid = pasid)).map Prod.fst).getD 512
      let hit := fun (q : Nat) => decide (page ≤ q) && decide (q < page + pages)
      let x : Inval := { itag := itag.val, inst := n, page := page, pages := pages, loads := s.loadsOf n fun p => p.pages.any hit }
      let s := s.count 3165 1
      State.invalsEnd { s with fn := { s.fn with
        ats := s.fn.ats.filter fun x => !(decide (x.inst = n) && hit x.page)
        invals := s.fn.invals ++ [x] } })

end Sys2Proof.Machine
end

