-- ==== Sys2Proof/Machine/DebugCmds.lean ====
section
/-! DEFINITION. The serial debug port's transactions (R466 to R479): each command answers with a status and its data words. -/
namespace Sys2Proof.Machine

/-- The debug statuses (R467). -/
inductive DbgStatus where
  | ok | closed | notHalted | refused | bad | noEngine | timeout
  deriving DecidableEq, Repr

/-- The code of a status. -/
def DbgStatus.code : DbgStatus → Nat
  | .ok => 0
  | .closed => 1
  | .notHalted => 2
  | .refused => 3
  | .bad => 4
  | .noEngine => 5
  | .timeout => 6

/-- A response leaves the port. -/
def State.debugReply (s : State) (st : DbgStatus) (data : List Word) : State := s.send (.debug st.code data)

/-- The port takes a request: its domain has power, and no response is due, which the probe would still be receiving (R467). (DEDUCED, log 153) -/
def State.dbgTakes (s : State) : Bool := s.domainOn 29 && s.pw.dbgWait.isNone

/-- A command other than STATUS (R467, R468): a port without power answers nothing, a closed one answers CLOSED. (DEDUCED, log 154) -/
def debugCmd (f : State → State) (s : State) : State :=
  if !s.dbgTakes then s
  else if s.params 11 % 2 = 1 then f s else (s.setBit 0x3C0001 0).debugReply .closed []

/-- An engine's domain has power (R467): a reckoner's frame, a steward pair's. (DEDUCED, log 154) -/
def State.dbgPowered (s : State) (e : EngId) : Bool := if isReckoner e then frameOn s (engFrame e) else s.domainOn (24 + (e.val - 192))

/-- The selected engine, in a domain with power. -/
def State.dbgEngine (s : State) : Option EngId :=
  match s.pw.dbgSel with
  | some n => if s.dbgPowered ⟨n % 196, by omega⟩ then some ⟨n % 196, by omega⟩ else none
  | none => none

/-- A command to the selected engine, or NO_ENGINE. (DEDUCED, log 148) -/
def onSelected (f : EngId → State → State) (s : State) : State :=
  match s.dbgEngine with
  | some e => f e s
  | none => s.debugReply .noEngine []

/-- A command to the selected engine while it is halted, or NOT_HALTED. (DEDUCED, log 148) -/
def onHalted (f : EngId → State → State) (s : State) : State :=
  onSelected (fun e s => if (s.engAt e).run = .halted then f e s else s.debugReply .notHalted []) s

/-- The engine an ENGID names (R127, R473): a steward selects its pair. -/
def engOfId (w : Word) : Option EngId :=
  let n := fld w 0 8
  if w.getLsbD 15 then (if n < 8 then some (stewardPair (n / 2)) else none)
  else if n < 192 then some (reckoner n) else none

/-- SELECT (R467, R473). (DEDUCED, log 147) -/
def execSelect (w : Word) (s : State) : Result :=
  .next (debugCmd (fun s =>
    if fld w 8 7 ≠ 0 then s.debugReply .bad []
    else
      match engOfId w with
      | none => s.debugReply .noEngine []
      | some e =>
        if s.dbgPowered e then { s with pw := { s.pw with dbgSel := some e.val } }.debugReply .ok [] else s.debugReply .noEngine []) s)

/-- A halt or a step whose answer waits for the halt (R467): TIMEOUT comes when 20 µs have passed without it, at `State.debugExpire`. -/
def State.debugAwait (s : State) (e : EngId) : State := { s with pw := { s.pw with dbgWait := some e.val, dbgWaitAt := s.time } }

/-- HALT (R469, R470): the engine halts at its next point; the answer is the cause word. (DEDUCED, log 153) -/
def execHalt (s : State) : Result :=
  .next (debugCmd (onSelected fun e s =>
    let x := s.engAt e
    match x.run with
    | .halted => s.debugReply .ok [BitVec.ofNat 16 x.dbgCause]
    | .reset => (s.debugAwait e).modEng e fun x => { x with haltAsked := true }
    | .checkstop => (s.debugAwait e).modEng e fun x => { x with haltAsked := true }
    | _ => settleHalt ((s.debugAwait e).modEng e fun x => { x with haltAsked := true }) e) s)

/-- A halted engine goes on (R469): the instruction at DPC executes, in its delay slot if it stood in one, then execution continues at
DNPC. (DEDUCED, log 16) -/
def Engine.resumed (x : Engine) : Engine :=
  { x with run := .running, pc := x.dpc, npc := some x.dnpc, slot := x.slot && x.dpc == x.pc, annul := x.annul && x.dpc == x.pc
           skipDbg := true, skipWp := true }

/-- RESUME (R469). -/
def execResume (s : State) : Result :=
  .next (debugCmd (onHalted fun e s => (s.modEng e Engine.resumed).debugReply .ok []) s)

/-- STEP (R471, R476): the count of instructions retires and the engine halts; the answer is the cause word. -/
def execStep (count : Word) (s : State) : Result :=
  .next (debugCmd (onSelected fun e s =>
    if count = 0#16 then s.debugReply .bad []
    else if (s.engAt e).run ≠ .halted then s.debugReply .notHalted []
    else (s.breakChecking.debugAwait e).modEng e fun x => { x.resumed with stepLeft := count.toNat }) s)

/-! ### Registers (R474) -/

/-- The words of a register of a class, 0 for a class or number that does not exist. -/
def dbgRegWords (e : EngId) (cls n : Nat) : Nat :=
  let lane := isReckoner e
  match cls with
  | 0 => if n < 32 then 1 else 0
  | 1 => if n < 16 then 3 else 0
  | 2 => if n < 4 then 5 else 0
  | 3 => if n < 4 then 1 else 0
  | 4 => if n < 16 ∧ lane = true then 16 else 0
  | 5 => if n < 4 ∧ lane = true then 48 else 0
  | 6 => if n < 4 ∧ lane = true then 1 else 0
  | 7 => if n < 4 then 9 else 0
  | 8 =>
    if n < 3 then 1 else if n < 5 then 3 else if n < 8 then (if lane then 1 else 0) else if n < 10 then 3 else 0
  | 9 => if 32 ≤ n then 0 else ctrlWidth n / 16
  | _ => 0

/-- A register read, low word first. -/
def dbgRegRead (e : EngId) (x : Engine) (cls n : Nat) : List Word :=
  let r := x.regs
  match cls with
  | 0 => [r.rw n]
  | 1 => toWords (r.ra n).toNat 3
  | 2 => toWords (r.rk n).toNat 5
  | 3 => [r.re n]
  | 4 => (List.range 16).map fun i => r.rv n i
  | 5 => ((List.range 16).map fun i => toWords (r.ru n i).toNat 3).flatten
  | 6 => [r.rp n]
  | 7 => (r.rq n).words
  | 8 =>
    match n with
    | 0 => [r.fl.toWord]
    | 1 => [r.mw.toWord]
    | 2 => [r.brc]
    | 3 => toWords r.brs.toNat 3
    | 4 => toWords r.bre.toNat 3
    | 5 => [r.vv]
    | 6 => [r.vso]
    | 7 => [r.vsat]
    | 8 => toWords x.dpc.toNat 3
    | _ => toWords x.dnpc.toNat 3
  | _ => if ctrlWidth n = 48 then toWords (readCtrl48 x n).toNat 3 else [readCtrl16 e x n]

/-- A value no write may put into the register: a stepper's zero denominator (R65), a reserved RND (R32), ENGID and ISAVER. (DEDUCED, log 146) -/
def dbgRegBars (cls n : Nat) (ws : List Word) : Bool :=
  match cls with
  | 7 => decide (wordsAt ws 5 2 = 0)
  | 8 => decide (n = 1) && decide (6 ≤ fld (wordAt ws 0) 0 3)
  | 9 => decide (n = 21 ∨ n = 22)
  | _ => false

/-- A register written with its words, low word first; a control register takes them as MTC in machine mode gives. (DEDUCED, log 146; DEDUCED, log 149) -/
def dbgRegWrite (e : EngId) (x : Engine) (cls n : Nat) (ws : List Word) : Engine :=
  let r := x.regs
  let w := wordAt ws 0
  let a := BitVec.ofNat 48 (wordsAt ws 0 3)
  match cls with
  | 0 => { x with regs := r.setW n w }
  | 1 => { x with regs := r.setA n a }
  | 2 => { x with regs := r.setK n (BitVec.ofNat 80 (wordsAt ws 0 5)) }
  | 3 => { x with regs := r.setE n w }
  | 4 => { x with regs := r.setV n fun i => some (wordAt ws i) }
  | 5 => { x with regs := r.setU n fun i => some (BitVec.ofNat 48 (wordsAt ws (3 * i) 3)) }
  | 6 => { x with regs := r.setP n w }
  | 7 => { x with regs := r.setQ n (Stepper.load ws) }
  | 8 =>
    match n with
    | 0 => { x with regs := r.setFl (Flags.ofWord w) }
    | 1 => { x with regs := { r with mw := ModeWord.ofWord w } }
    | 2 => { x with regs := { r with brc := w } }
    | 3 => { x with regs := { r with brs := a } }
    | 4 => { x with regs := { r with bre := a } }
    | 5 => { x with regs := { r with vv := w } }
    | 6 => { x with regs := { r with vso := w } }
    | 7 => { x with regs := { r with vsat := w } }
    | 8 => { x with dpc := a }
    | _ => { x with dnpc := a }
  | _ =>
    if n = 0 then { x with psr := writePsr { x.psr with mode := .machine } w }
    else if ctrlWidth n = 48 then writeCtrl48 x n a else writeCtrl16 e x n w

/-- READ_REG (R474): class in bits 15:12 of the word, number in bits 11:0. -/
def execReadReg (r : Word) (s : State) : Result :=
  .next (debugCmd (onSelected fun e s =>
    let x := s.engAt e
    if dbgRegWords e (fld r 12 4) (fld r 0 12) = 0 then s.debugReply .bad []
    else if x.run ≠ .halted then s.debugReply .notHalted []
    else s.debugReply .ok (dbgRegRead e x (fld r 12 4) (fld r 0 12))) s)

/-- DEBUG_WRITE entered in the journal (R479). (DEDUCED, log 53) -/
def State.debugWrite (s : State) (where_ : Word) (count : Nat) : State :=
  s.journal { origin := .debugPort, target := .event 0x0A 0, old := where_, new := BitVec.ofNat 16 count }

/-- WRITE_REG (R473, R474, R476, R479). -/
def execWriteReg (r : Word) (data : List Word) (s : State) : Result :=
  .next (debugCmd (onSelected fun e s =>
    let x := s.engAt e
    let cls := fld r 12 4
    let n := fld r 0 12
    if dbgRegWords e cls n = 0 ∨ data.length ≠ dbgRegWords e cls n ∨ dbgRegBars cls n data = true then s.debugReply .bad []
    else if x.run ≠ .halted then s.debugReply .notHalted []
    else
      let s := (s.uncheck e).breakChecking.debugWrite r data.length
      (s.modEng e fun x => dbgRegWrite e x cls n data).debugReply .ok []) s)

/-! ### Memory (R475) -/

/-- A physical address with copy B of a steward pair's memory brought to copy A's (R454). The range of an engine's own memory
names none of the port's. (DESIGN CHOICE, log 145) -/
def dbgPa (a : Nat) : Nat :=
  if 0x4E00000000 ≤ a ∧ a < 0x4E00200000 ∧ (a - 0x4E00000000) / 0x40000 % 2 = 1 then a - 0x40000 else a

/-- The port may reach a physical word: backed memory, a register, a board's words for a read. (DESIGN CHOICE, log 145) -/
def dbgReach (s : State) (store virt : Bool) (pa : Nat) : Bool :=
  backed s pa && (match regionOf pa with | .board => !store | .host => virt | _ => true)

/-- A virtual word through the halted engine's TLB, with its ASID, in kernel mode, and no refill (R475). (DESIGN CHOICE, log 145) -/
def dbgTranslate (s : State) (e : EngId) (store : Bool) (va : Addr) : Option Nat :=
  let x := s.engAt e
  let k := if store then Kind.store else .load
  match tlbLookup x.tlb x.ctrl.asid va with
  | none => none
  | some (_, t) =>
    let pa := canonPa e (t.phys va)
    if t.permits k false && (regionCheck s x k false t.c pa).isNone then some pa else none

/-- The physical words of an access, or the status that refuses it. Bit 47 of the address marks a virtual one. -/
def dbgWords (s : State) (store : Bool) (a : Addr) (count : Nat) : Except DbgStatus (List Nat) :=
  if count = 0 ∨ 256 < count then .error .bad
  else
    let all := fun (l : List (Option Nat)) =>
      match l.all Option.isSome with
      | true => Except.ok (l.filterMap id)
      | false => .error DbgStatus.refused
    if a.getLsbD 47 then
      match s.dbgEngine with
      | none => .error .noEngine
      | some e =>
        if (s.engAt e).run ≠ .halted then .error .notHalted
        else all ((List.range count).map fun i =>
          (dbgTranslate s e store (BitVec.ofNat 48 (a.toNat % 2 ^ 47 + i))).bind fun pa => if dbgReach s store true pa then some pa else none)
    else all ((List.range count).map fun i => let pa := dbgPa (a.toNat + i); if dbgReach s store false pa then some pa else none)

/-- The words read, registers through the port's own shadows; host words as the host gives them; what an uncorrectable word
reads is free. (DESIGN CHOICE, log 37) -/
def dbgRead : List Nat → List Word → State → List Word × State
  | [], _, s => ([], s)
  | pa :: l, h, s =>
    match regionOf pa with
    | .csr =>
      let r := csrRead .debug (pa - 0x6000000000) s
      let t := dbgRead l h r.2
      (r.1 :: t.1, t.2)
    | .board =>
      let t := dbgRead l h s
      (boardWindow s (pa - 0x5000000000) :: t.1, t.2)
    | .host =>
      let t := dbgRead l (h.drop 1) s.drawn
      (h.headD (Config.freeWord s.fv) :: t.1, t.2)
    | _ =>
      let t := dbgRead l h s.drawn
      ((if isBad s pa then Config.freeWord s.fv else s.readMem pa) :: t.1, t.2)

/-- READ_MEM (R475): `host` the words the host gives for a virtual address of the host window, none where it refuses. -/
def execReadMem (a : Addr) (count : Nat) (host : Option (List Word)) (s : State) : Result :=
  .next (debugCmd (fun s =>
    match dbgWords s false a count with
    | .error st => s.debugReply st []
    | .ok l =>
      if (l.any fun pa => decide (regionOf pa = .host)) && (host.isNone || s.dmaOff) then s.debugReply .refused []
      else
        let r := dbgRead l (host.getD []) s
        r.2.debugReply .ok r.1) s)

/-- Words written to memory past every cache; a DRAM group written whole, and an SRAM word, are no longer uncorrectable (R462). -/
def dbgStore (l : List (Nat × Word)) (s : State) : State :=
  let has := fun (pa : Nat) => l.any fun w => decide (w.1 = pa)
  { s with
    mem := l.foldl (fun m w => setWord m w.1 w.2) s.mem
    bad := s.bad.filter fun b => !(if b.1 < 0x4000000000 then (List.range 4).all fun i => has (b.1 + i) else has b.1) }

/-- A write by the port to a word of a steward pair's memory: the pair's compare points ignore differences from then on (R473). -/
def State.uncheckWord (s : State) (pa : Nat) : State :=
  match regionOf pa with
  | .stew k => s.uncheck (stewardPair (k / 2))
  | _ => s

/-- WRITE_MEM (R473, R475, R476, R479): a write that is refused writes no word. Registers are journaled as themselves too. -/
def execWriteMem (a : Addr) (data : List Word) (s : State) : Result :=
  .next (debugCmd (fun s =>
    match dbgWords s true a data.length with
    | .error st => s.debugReply st []
    | .ok l =>
      let ws := l.zip data
      let inst := match s.dbgEngine with | some e => (s.engAt e).ctrl.hinst.toNat | none => 0
      let s := (l.foldl State.uncheckWord s).breakChecking.debugWrite (a.extractLsb' 0 16) data.length
      let s := dbgStore (ws.filter fun w => (regionOf w.1).isMemory) s
      let s := ws.foldl (fun s w =>
        match regionOf w.1 with
        | .csr => csrWrite .debug (w.1 - 0x6000000000) w.2 s
        | .host => s.hostStore inst (2 * (w.1 - 0x8000000000)) [w.2]
        | _ => s) s
      s.debugReply .ok []) s)

/-! ### Breakpoints and watchpoints (R472) -/

/-- SET_BP: slot in bits 1:0 of the word, enable in bit 15, ASID match in bit 14. -/
def execSetBp (w : Word) (a : Addr) (s : State) : Result :=
  .next (debugCmd (onSelected fun e s =>
    if fld w 2 12 ≠ 0 then s.debugReply .bad []
    else
      let x := s.engAt e
      let p : DebugPoint := { armed := w.getLsbD 15, lo := a.toNat, hi := if w.getLsbD 14 then x.ctrl.asid.toNat + 1 else 0 }
      (s.setEng e { x with bps := tblSet {} x.bps (fld w 0 2) p }).debugReply .ok []) s)

/-- SET_WP: slot in bit 0 of the word, enable in bit 15, kind in bits 13:12. -/
def execSetWp (w : Word) (a mask : Addr) (s : State) : Result :=
  .next (debugCmd (onSelected fun e s =>
    if fld w 1 11 ≠ 0 ∨ w.getLsbD 14 = true ∨ (w.getLsbD 15 = true ∧ fld w 12 2 = 0) then s.debugReply .bad []
    else
      let x := s.engAt e
      let p : DebugPoint := { armed := w.getLsbD 15, lo := a.toNat, hi := mask.toNat, kind := fld w 12 2 }
      (s.setEng e { x with wps := tblSet {} x.wps (fld w 0 1) p }).debugReply .ok []) s)

/-- STATUS (R467, R468): answered by a closed port too: DB_STATUS, and the selected engine's state. -/
def execStatus (s : State) : Result :=
  .next (
    if !s.dbgTakes then s
    else
      let x : Engine := match s.pw.dbgSel with | some n => s.engAt ⟨n % 196, by omega⟩ | none => {}
      s.debugReply .ok [s.dbStatus, BitVec.ofNat 16 ((if x.run = .halted then 0x8000 else 0) + x.dbgCause % 16)])

/-- REQUEST_ABANDON (R467): a request broken off is discarded; a request has no effect before it is whole. (DESIGN CHOICE, log 150) -/
def execRequestAbandon (s : State) : Result := .next s

end Sys2Proof.Machine
end

