-- ==== Sys2Proof/Machine/Encoding.lean ====
section
/-! DEFINITION. Which encodings revision 1.0 of Nirnis-16 defines (R129 to R132, R150 to R171): every other raises EMULATE. -/
namespace Sys2Proof.Machine

/-- Word 0's D or T field. -/
def fD (w : Word) : Nat := fld w 5 5
/-- Word 0's S field. -/
def fS (w : Word) : Nat := fld w 0 5

/-- The system group (R166). -/
def sysDefined (w0 : Word) : Bool :=
  let d := fD w0
  let x := fS w0
  if d ≤ 4 ∨ (14 ≤ d ∧ d ≤ 17) ∨ d = 21 ∨ (24 ≤ d ∧ d ≤ 28) then decide (x = 0)
  else if d = 5 ∨ (10 ≤ d ∧ d ≤ 13) ∨ (18 ≤ d ∧ d ≤ 20) ∨ d = 23 then decide (x < 16)
  else decide (6 ≤ d ∧ d ≤ 9) || decide (d = 22)

/-- The one-word formats (R151, R156, R157, R160, R162, R163, R171). -/
def shortDefined (w0 : Word) : Bool :=
  let op := fld w0 10 6
  let d := fD w0
  let x := fS w0
  if op = 0 then sysDefined w0
  else if op ≤ 2 then !ctrlBad x d
  else if op ≤ 0x0C then true
  else if op = 0x0D then decide (x % 8 = 0) || (decide (x % 8 = 4) && decide (d % 2 = 0))
  else if op = 0x0E then true
  else if op = 0x0F then (decide (d ≤ 1) && decide (x < 16)) || (decide (d = 2) && decide (x = 0))
  else if op ≤ 0x11 then true
  else if op ≤ 0x13 then decide (d % 2 = 0)
  else if op ≤ 0x17 then decide (d < 16)
  else if op = 0x18 ∨ op = 0x1A ∨ op = 0x1C then decide (d % 16 < 4)
  else if op = 0x19 then decide (x < 16)
  else if op = 0x1B then true
  else if op = 0x1D then decide (d % 2 = 0) && decide (x % 2 = 0)
  else if op = 0x1E then decide (fld w0 4 2 = 0)
  else if op = 0x1F then true
  else if op ≤ 0x22 ∨ op = 0x25 then decide (fld w0 0 2 = 0)
  else if op = 0x27 then decide (fld w0 2 8 = 0)
  else true

/-- The word group (R153). -/
def wordDefined (w0 w1 : Word) : Bool :=
  let fn := fld w1 10 6
  let t := fld w1 5 5
  let sfx := fld w1 3 2
  let rnd := fld w1 0 3
  let even := decide (fD w0 % 2 = 0)
  let sfxOk := if fn ∈ [0x00, 0x01, 0x04, 0x05, 0x10, 0x11, 0x12, 0x18, 0x19, 0x1C] then decide (sfx ≠ 3) else decide (sfx = 0)
  let listed := decide (fn ≤ 0x0D) || (decide (0x10 ≤ fn) && decide (fn ≤ 0x15)) || (decide (0x18 ≤ fn) && decide (fn ≤ 0x1C))
    || (decide (0x20 ≤ fn) && decide (fn ≤ 0x22))
  let unary := fn ∈ [0x04, 0x05, 0x0B, 0x15]
  let long := fn ∈ [0x1A, 0x1B, 0x1C, 0x20, 0x21]
  let cmp := fn ∈ [0x0C, 0x0D]
  listed && sfxOk && decide (rnd = 0) && (!decide unary || decide (t = 0)) && (!decide long || even)
    && (!decide cmp || decide (fD w0 = 0))

/-- The operand classes of the long group (R154): for D, S and T, 0 unused, 1 word, 2 long, 3 address. -/
def longClasses (fn : Nat) : Option (Nat × Nat × Nat) :=
  if fn ≤ 3 ∨ fn = 6 ∨ fn = 7 ∨ (0x0B ≤ fn ∧ fn ≤ 0x0D) then some (2, 2, 2)
  else if fn = 4 ∨ fn = 5 ∨ fn = 8 ∨ fn = 9 then some (2, 2, 0)
  else if fn = 0x0A then some (0, 2, 2)
  else if (0x10 ≤ fn ∧ fn ≤ 0x14) ∨ fn = 0x28 ∨ fn = 0x29 then some (2, 2, 1)
  else if fn = 0x15 ∨ fn = 0x1E ∨ fn = 0x20 ∨ fn = 0x21 then some (1, 2, 0)
  else if 0x18 ≤ fn ∧ fn ≤ 0x1D then some (2, 1, 1)
  else if fn = 0x22 ∨ fn = 0x23 then some (2, 1, 0)
  else if fn = 0x30 then some (3, 3, 1)
  else if fn = 0x31 then some (3, 3, 2)
  else if fn = 0x32 then some (3, 3, 0)
  else if fn = 0x33 then some (2, 3, 3)
  else if fn = 0x34 then some (0, 3, 3)
  else if fn = 0x35 then some (3, 2, 0)
  else if fn = 0x36 then some (2, 3, 0)
  else none

/-- A field value lies in its register class (R131): 4 names a register numbered 0 to 3. -/
def classOk (c v : Nat) : Bool :=
  match c with
  | 0 => decide (v = 0)
  | 1 => true
  | 2 => decide (v % 2 = 0)
  | 3 => decide (v < 16)
  | _ => decide (v < 4)

/-- The long group (R154). -/
def longDefined (w0 w1 : Word) : Bool :=
  let fn := fld w1 10 6
  let sfx := fld w1 3 2
  let sfxOk := if fn ∈ [0x00, 0x01, 0x04, 0x05, 0x10, 0x11, 0x12, 0x18, 0x19] then decide (sfx ≠ 3) else decide (sfx = 0)
  match longClasses fn with
  | none => false
  | some (d, x, t) => classOk d (fD w0) && classOk x (fS w0) && classOk t (fld w1 5 5) && sfxOk && decide (fld w1 0 3 = 0)

/-- The operand classes of the rod group (R155); for the narrowings T is the shift count. -/
def rodClasses (fn : Nat) : Option (Nat × Nat × Nat) :=
  if fn ≤ 3 then some (4, 1, 1)
  else if fn = 4 then some (4, 2, 0)
  else if fn = 5 ∨ fn = 7 then some (4, 4, 0)
  else if fn = 6 then some (4, 0, 0)
  else if fn = 8 ∨ fn = 0x0B then some (4, 1, 0)
  else if fn = 9 then some (4, 2, 0)
  else if fn = 0x0A then some (1, 4, 0)
  else if 0x10 ≤ fn ∧ fn ≤ 0x17 then some (1, 2, 1)
  else if fn = 0x20 ∨ fn = 0x21 then some (1, 4, 1)
  else if fn = 0x22 ∨ fn = 0x23 then some (2, 4, 1)
  else if fn = 0x30 ∨ fn = 0x34 then some (1, 4, 0)
  else if fn = 0x31 then some (4, 2, 0)
  else if fn = 0x32 then some (4, 2, 2)
  else if fn = 0x33 then some (2, 4, 0)
  else if fn = 0x38 then some (4, 3, 3)
  else if fn = 0x39 then some (4, 4, 0)
  else none

/-- The rod group (R155); a rounding field of 6 or 7 raises EMULATE too (R32). -/
def rodDefined (w0 w1 : Word) : Bool :=
  let fn := fld w1 10 6
  let narrowing := (decide (0x10 ≤ fn) && decide (fn ≤ 0x17)) || (decide (0x20 ≤ fn) && decide (fn ≤ 0x23))
  let tail := if narrowing then decide (fld w1 3 2 ≠ 3) && decide (fld w1 0 3 < 6) else decide (fld w1 0 5 = 0)
  match rodClasses fn with
  | none => false
  | some (d, x, t) => classOk d (fD w0) && classOk x (fS w0) && classOk t (fld w1 5 5) && tail

/-- Word 1 of format LM (R134, R162). -/
def amodeDefined (w1 : Word) : Bool :=
  match fld w1 13 3 with
  | 0 => decide (fld w1 0 13 = 0)
  | 1 => decide (fld w1 0 13 = 0)
  | 2 => decide (fld w1 0 13 = 0)
  | 3 => true
  | 4 => decide (fld w1 0 6 = 0)
  | 5 => decide (fld w1 9 4 = 0)
  | 6 => decide (fld w1 9 4 ≠ 0)
  | _ => false

/-- The long lane groups (R131, R158, R159). -/
def laneDefined (op : Nat) (w0 w1 : Word) : Bool :=
  let vd := fld w0 6 4
  let va := fld w0 2 4
  let z := fld w0 1 1
  let pe := fld w0 0 1
  let fn := fld w1 11 5
  let vb := fld w1 7 4
  let p := fld w1 5 2
  let sfx := fld w1 3 2
  let rnd := fld w1 0 3
  let maskOk := decide (pe = 1) || (decide (z = 0) && decide (p = 0))
  let noMask := decide (pe = 0) && decide (z = 0) && decide (p = 0)
  let bare := decide (sfx = 0) && decide (rnd = 0)
  maskOk &&
  (if op = 0x32 then
    if fn ≤ 5 then decide (sfx ≠ 3) && decide (rnd = 0) && (!(fn == 2 || fn == 3) || decide (vb = 0))
    else if fn ≤ 0x0A then bare
    else if fn = 0x0B then bare && decide (vb = 0)
    else if fn = 0x0C then bare && decide (va = 0)
    else if fn = 0x0D then decide (sfx = 0) && decide (rnd < 4)
    else decide (0x10 ≤ fn ∧ fn ≤ 0x13) && decide (sfx ≠ 3) && decide (rnd = 0)
  else if op = 0x33 then
    bare && decide (vd < 4) &&
      (decide (fn ≤ 3) || ((fn == 4 || fn == 5) && decide (vb = 0)) || (fn == 6 && decide (va = 0) && decide (vb = 0)))
  else if op = 0x34 then
    decide (fld w1 10 6 < 48) && decide (fld w1 7 1 = 0) && decide (sfx ≠ 3) && decide (rnd < 6)
  else if op = 0x35 then
    bare &&
      ((decide (fn ≤ 2) && decide (vd % 4 = 0)) ||
       (noMask && ((decide (4 ≤ fn ∧ fn ≤ 6) && decide (vd % 4 = 0) && decide (va < 4) && decide (vb < 4)) ||
         (fn == 7 && decide (vd % 4 = 0) && decide (va < 4) && decide (vb = 0)) ||
         (fn == 8 && decide (vd % 4 = 0) && decide (va = 0)) ||
         (fn == 9 && decide (va ≤ 7 ∧ va ≠ 3) && decide (vb = 0)) ||
         (fn == 10 && decide (va ≤ 2) && decide (vd = 0)))))
  else op == 0x36 && decide (fn < 16) && bare)

/-- Does revision 1.0 define the encoding that these words begin with? -/
def encodingDefined (w0 w1 w2 : Word) : Bool :=
  let op := fld w0 10 6
  if op < 0x28 then shortDefined w0
  else if op = 0x28 then wordDefined w0 w1
  else if op = 0x29 then longDefined w0 w1
  else if op = 0x2A then rodDefined w0 w1
  else if op = 0x2B then decide (fS w0 ≤ 14)
  else if op ≤ 0x2D then decide (fld w0 0 1 = 0) && amodeDefined w1
  else if op ≤ 0x2F then decide (fld w0 0 1 = 0) && decide (fD w0 % 2 = 0) && amodeDefined w1
  else if op = 0x30 then true
  else if op = 0x31 then decide (fld w0 6 4 = 15)
  else if op ≤ 0x36 then laneDefined op w0 w1
  else if op = 0x37 then false
  else if op = 0x38 then
    if fS w0 ≤ 4 then decide (fD w0 % 2 = 0)
    else if fS w0 ≤ 6 then decide (fD w0 < 16)
    else decide (fS w0 = 7) && decide (fD w0 < 16) && decide (w2 = 0#16)
  else if op ≤ 0x3A then decide (fld w0 0 1 = 0) || decide (fld w0 1 4 = 0)
  else if op = 0x3B then
    match fld w0 8 2 with
    | 0 => true
    | 1 => decide (fld w0 0 4 = 0)
    | 2 => decide (fld w0 0 8 = 0)
    | _ => decide (fld w0 5 3 = 0) && decide (w1 = 0#16)
  else false

/-- RESERVED_ENCODING (R131): the words at the point are no defined encoding, and EMULATE is raised with the length OP
gives (R129, R147). With a defined encoding there is no such event and nothing happens. -/
def execReservedEncoding (e : EngId) (w0 w1 w2 : Word) (s : State) : Result :=
  .next (if encodingDefined w0 w1 w2 then s
    else issue { words := [w0, w1, w2].take (wordLen w0) } (fun _ _ => { emul := true }) (fun _ _ => .seq)
      (fun _ _ s => .ok s) e s)

end Sys2Proof.Machine
end

