-- ==== Sys2Proof/Machine/HostCmds.lean ====
section
/-! DEFINITION. The PCI Express function's own events (R287, R290, R312, R432): resets of the function, configuration requests, and its
power states. -/
namespace Sys2Proof.Machine

/-- CF_STATUS.HOST_READY (R432). (DEDUCED, log 155) -/
def State.hostReady (s : State) : Bool := s.bit 0x030000 14

/-- A reset of the function (R287, R290): its configuration space, the MSI-X table, the translation cache and every portal's ring
registers at their reset values, in D0, and the host's shadows cleared; completions of a lost twin are not written to the rings that
its drivers set up anew. No instance, object or coach changes. Bus Master Enable is 0, so records wait. -/
def State.functionReset (s : State) : State :=
  let s := s.clearShadows fun k => decide (k / 0x4000000 ≠ agentIdx .host)
  State.holdAll { s with
    csr := s.csr.filter fun x => decide (x.1 < 0x1000000)
    fn := { s.fn with config := [], ats := [], invals := [], atsOn := false, d3hot := false, busMaster := false, msixOn := false, msixMask := false
                      rewrite := false, aerUnc := 0#32, aerCor := 0#32 } }

/-- HOST_RESET entered in the journal (R287): OLD 0 for a Function Level Reset, 1 for PERST_N. -/
def State.hostReset (s : State) (how : Word) : State :=
  s.functionReset.journal { origin := .manager, target := .event 0x0B 0, old := how }

/-- PERST_N (R287): its assertion resets the function; one that meets a running device is journaled. (DEDUCED, log 156) -/
def execPerstN (s : State) : Result :=
  .next (
    if s.fn.perstLow then s
    else
      let s := { s with fn := { s.fn with perstLow := true } }
      if s.hostReady then s.hostReset 1#16 else s.functionReset)

/-- PERST_N_RELEASE (R432): the link trains, and a start past its HOST stage is host-ready. (DEDUCED, log 155) -/
def execPerstNRelease (s : State) : Result :=
  .next (
    if !s.fn.perstLow then s
    else
      let s := { s with fn := { s.fn with perstLow := false } }
      if 5 ≤ fld (s.reg 0x030000) 0 4 then s.setBit 0x030000 14 else s)

/-- FUNCTION_LEVEL_RESET (R287): the host can ask for one once configuration requests are answered. (DEDUCED, log 156) -/
def execFunctionLevelReset (s : State) : Result :=
  .next (if s.fn.perstLow || !s.hostReady then s else s.hostReset 0#16)

/-- Bits of dwords of configuration space that R285's table fixes, under a mask: identity and class, a type 0 header, BAR0 and BAR2
and no other BAR, then the capabilities. (PRESUMED, log 144) -/
def fixedHeader : List (Nat × Long × Long) :=
  [(0, 0xFFFFFFFF#32, 0x01921D5A#32), (2, 0xFFFFFF00#32, 0x04800000#32), (3, 0x00FF0000#32, 0#32), (4, 0x03FFFFFF#32, 4#32),
   (6, 0x01FFFFFF#32, 4#32), (8, 0xFFFFFFFF#32, 0#32), (9, 0xFFFFFFFF#32, 0#32)]

/-- The same of the capabilities, by the capability and the dword within it: payload size, Function Level Reset, the link, 10-bit tags,
power management, the MSI-X table, ECRC, ATS, PASID, the serial number, the data link feature exchange. (PRESUMED, log 144) -/
def fixedCaps : List (Nat × Nat × Long × Long) :=
  [(0, 0, 0x00FF00FF#32, 0x00020010#32), (0, 1, 0x10000007#32, 0x10000002#32), (0, 3, 0x00000FFF#32, 0x885#32),
   (0, 9, 0x00033BC0#32, 0x00030000#32), (0, 11, 0x000000FE#32, 0x3E#32), (1, 0, 0x060000FF#32, 0x01#32),
   (2, 0, 0x07FF00FF#32, 0x07FF0011#32), (2, 1, 0xFFFFFFFF#32, 0x02000000#32), (2, 2, 0xFFFFFFFF#32, 0x02010000#32),
   (3, 0, 0x0000FFFF#32, 1#32), (3, 6, 0xA0#32, 0xA0#32), (4, 0, 0x0000FFFF#32, 3#32),
   (4, 1, 0xFFFFFFFF#32, Config.fuse 1 ++ Config.fuse 0), (4, 2, 0xFFFFFFFF#32, Config.fuse 3 ++ Config.fuse 2),
   (5, 0, 0x0000FFFF#32, 0x0F#32), (5, 1, 0x3F#32, 0x20#32), (6, 0, 0x0000FFFF#32, 0x1B#32), (6, 1, 0x1F06#32, 0x1400#32),
   (7, 0, 0x0000FFFF#32, 0x25#32), (7, 1, 0x1#32, 0x1#32)]

/-- Bits of dwords of configuration space that read as last written, 0 after reset: the command register's enables, the base addresses,
the MSI-X and ATS enables, the completion timeout range, the PASID enable. (PRESUMED, log 144) -/
def writable : List (Nat × Long) :=
  [(1, 0x00000546#32), (4, 0xFC000000#32), (5, 0xFFFFFFFF#32), (6, 0xFE000000#32), (7, 0xFFFFFFFF#32)] ++
    [(2, 0, 0xC0000000#32), (5, 1, 0x801F0000#32), (0, 10, 0x0000101F#32), (6, 1, 0x00010000#32)].map fun x => (Config.capDword x.1 + x.2.1, x.2.2)

/-- The bits of a dword that read as written. (PRESUMED, log 144) -/
def configRw (dword : Nat) : Long := ((writable.find? fun x => decide (x.1 = dword)).map Prod.snd).getD 0#32

/-- The fixed bits of a dword of configuration space: their mask and their values. -/
def configFixed (dword : Nat) : Long × Long :=
  let l := fixedHeader ++ fixedCaps.map fun x => (Config.capDword x.1 + x.2.1, x.2.2)
  ((l.find? fun x => decide (x.1 = dword)).map Prod.snd).getD (0#32, 0#32)

/-- A dword of configuration space: what R285's table fixes, the error status of R318; what else it holds after reset is not the spec's. (PRESUMED, log 144) -/
def State.configAt (s : State) (dword : Nat) : Long :=
  if dword = Config.capDword 3 + 1 then s.fn.aerUnc
  else if dword = Config.capDword 3 + 4 then s.fn.aerCor
  else
    let w := (tblGet none s.fn.config dword).getD (Config.configReset dword &&& ~~~configRw dword)
    let (m, v) := configFixed dword
    (w &&& ~~~m) ||| v

/-- What waited for host memory goes on once the device makes requests (R287, R317): completions, notices, a snapshot, messages. -/
def State.hostResumed (s : State) : State :=
  if s.dmaOff then s
  else
    let s := if s.fn.rewrite then s.rewriteCpls else s
    ((List.range 512).foldl (fun s n => s.flushCpl n) s).snapWrite.msixFlush

/-- The enables that count of a dword written (R285, R312): Bus Master, MSI-X and its Function Mask, ATS. (PRESUMED, log 144; PRESUMED, log 204) -/
def Function.enables (x : Function) (dword : Nat) (w : Long) : Function :=
  if dword = 1 then { x with busMaster := w.getLsbD 2 }
  else if dword = Config.capDword 2 then { x with msixOn := w.getLsbD 31, msixMask := w.getLsbD 30 }
  else if dword = Config.capDword 5 + 1 then { x with atsOn := w.getLsbD 31 }
  else x

/-- A dword of configuration space written: its enables count, what waited for them goes on, and a 1 clears its bit of an error status
(R318). (PRESUMED, log 144) -/
def State.configWrite (s : State) (dword : Nat) (w : Long) : State :=
  if dword = Config.capDword 3 + 1 then { s with fn := { s.fn with aerUnc := s.fn.aerUnc &&& ~~~w } }
  else if dword = Config.capDword 3 + 4 then { s with fn := { s.fn with aerCor := s.fn.aerCor &&& ~~~w } }
  else
    let v := (Config.configWrite dword (s.configAt dword) w &&& ~~~configRw dword) ||| (w &&& configRw dword)
    let fn := { s.fn with config := tblSet none s.fn.config dword (some v) }
    (State.holdAll { s with fn := fn.enables dword w }).hostResumed

/-- CONFIG_REQUEST (R287): a read, or a write with its dword; answered with Retry Status before host-ready. -/
def execConfigRequest (dword : Fin 1024) (write : Option Long) (s : State) : Result :=
  .next (
    if s.fn.perstLow || !s.domainOn 29 then s
    else if !s.hostReady then s.send (.config true 0#32)
    else
      match write with
      | none => s.send (.config false (s.configAt dword.val))
      | some w => (s.configWrite dword.val w).send (.config false 0#32))

/-- D3HOT_ENTRY (R287): host-side DMA stops. (DEDUCED, log 156) -/
def execD3hotEntry (s : State) : Result :=
  .next (if s.fn.perstLow || !s.hostReady then s else State.holdAll { s with fn := { s.fn with d3hot := true } })

/-- D0_ENTRY (R287): completions, notices and the rest that waited for host memory are written. (DEDUCED, log 156) -/
def execD0Entry (s : State) : Result :=
  .next (
    if s.fn.perstLow || !s.hostReady || !s.fn.d3hot then s
    else
      State.hostResumed { s with fn := { s.fn with d3hot := false } })

end Sys2Proof.Machine
end

