-- ==== Sys2Proof/Machine/Lanes.lean ====
section
/-! DEFINITION. The lane unit (R55 to R64, R157 to R159): element-wise arithmetic, lane accumulators, lane narrowing,
compares and predicates, and the rod sums over lanes. -/
namespace Sys2Proof.Machine

/-- The active lanes of a short form, and of KDOT and VUSUM (R56): by MW.LPE and MW.LPS. -/
def shortActive (r : Regs) (i : Nat) : Bool := if r.mw.lpe then (r.rp r.mw.lps.toNat).getLsbD i else true
/-- The active lanes of a long form (R56). -/
def longActive (r : Regs) (m : LMask) (i : Nat) : Bool :=
  match m with
  | .all => true
  | .pred p _ => (r.rp p.val).getLsbD i
/-- The zeroing bit of a long form (R56). -/
def zeroing : LMask → Bool
  | .all => false
  | .pred _ z => z

/-- One lane's result: value, overflow, saturated by a limit. -/
structure LaneRes where
  val : Word
  ovr : Bool := false
  limited : Bool := false
  sticky : Bool := false
  deriving DecidableEq, Repr

/-- An exact lane value fitted to 16 bits (R58, R59). -/
def laneFit (sat : Bool) (y : Int) : LaneRes :=
  let v := y != satInt 16 y
  { val := BitVec.ofInt 16 (if sat then satInt 16 y else y), ovr := v, limited := v && sat, sticky := v && sat }

/-- VNEG and VABS (R58): the quiet limit under saturation. -/
def laneQuiet (sat : Bool) (y : Int) : LaneRes :=
  let v := y != satInt 16 y
  { val := BitVec.ofInt 16 (if sat then satInt 16 y else y), ovr := v && !sat, limited := v && sat }

/-- The lane flag registers after an instruction that writes VV in its active lanes (R58, R59). -/
def Regs.laneFlags (r : Regs) (act : Nat → Bool) (ovr sticky limited : Nat → Bool) : Regs :=
  { r with
    vv := wordOfBits fun i => if act i then ovr i else r.vv.getLsbD i
    vso := wordOfBits fun i => r.vso.getLsbD i || (act i && sticky i)
    vsat := wordOfBits fun i => r.vsat.getLsbD i || (act i && limited i) }

/-- A v destination: active lanes written, inactive ones kept or zeroed (R56). -/
def Regs.putLanes (r : Regs) (d : Nat) (act : Nat → Bool) (z : Bool) (f : Nat → Word) : Regs :=
  r.setV d fun i => if act i then some (f i) else if z then some 0#16 else none

/-- The shape of an element-wise lane instruction that reports overflow (R58). -/
def laneOp (words : List Word) (base : Nat) (d : Nat) (act : Regs → Nat → Bool) (z : Bool)
    (f : Regs → Nat → LaneRes) (e : EngId) (s : State) : Result :=
  issueRegs { words := words, base := base, lacks := true, writes := [.v d, .vv, .vso, .vsat] } (fun _ _ => {})
    (fun rd r => (r.putLanes d (act rd) z fun i => (f rd i).val).laneFlags (act rd)
      (fun i => (f rd i).ovr) (fun i => (f rd i).sticky) (fun i => (f rd i).limited)) e s

/-- The words of a two-source form. -/
def vsumWords (f : VSum) (op fn : Nat) : List Word :=
  match f with
  | .s d b => encSV op d.val b.val 0
  | .l d a b m x => encLV 0x32 fn d.val a.val b.val m x 0#3
/-- Its destination. -/
def vsumDst : VSum → Nat
  | .s d _ => d.val
  | .l d _ _ _ _ => d.val
/-- Its lanes: a short form's destination is its first source (R157). -/
def vsumArgs (f : VSum) (r : Regs) (i : Nat) : Word × Word :=
  match f with
  | .s d b => (r.rv d.val i, r.rv b.val i)
  | .l _ a b _ _ => (r.rv a.val i, r.rv b.val i)
/-- Its active lanes. -/
def vsumAct (f : VSum) (r : Regs) (i : Nat) : Bool :=
  match f with
  | .s _ _ => shortActive r i
  | .l _ _ _ m _ => longActive r m i
/-- Its zeroing bit. -/
def vsumZ : VSum → Bool
  | .s _ _ => false
  | .l _ _ _ m _ => zeroing m
/-- Its suffix. -/
def vsumSfx : VSum → Sfx
  | .s _ _ => .mw
  | .l _ _ _ _ x => x

/-- VADD (R58). -/
def execVadd (e : EngId) (f : VSum) (s : State) : Result :=
  laneOp (vsumWords f 0x20 0x00) 1 (vsumDst f) (vsumAct f) (vsumZ f)
    (fun r i => laneFit (saturates (vsumSfx f) r.mw) ((vsumArgs f r i).1.toInt + (vsumArgs f r i).2.toInt)) e s
/-- VSUB (R58). -/
def execVsub (e : EngId) (f : VSum) (s : State) : Result :=
  laneOp (vsumWords f 0x21 0x01) 1 (vsumDst f) (vsumAct f) (vsumZ f)
    (fun r i => laneFit (saturates (vsumSfx f) r.mw) ((vsumArgs f r i).1.toInt - (vsumArgs f r i).2.toInt)) e s
/-- VMULR (R58). -/
def execVmulr (e : EngId) (f : VSum) (s : State) : Result :=
  laneOp (vsumWords f 0x22 0x05) 2 (vsumDst f) (vsumAct f) (vsumZ f)
    (fun r i => laneFit (saturates (vsumSfx f) r.mw)
      (Int.fdiv ((vsumArgs f r i).1.toInt * (vsumArgs f r i).2.toInt + 16384) 32768)) e s
/-- VMULH (R58). -/
def execVmulh (e : EngId) (d a b : Fin 16) (m : LMask) (x : Sfx) (s : State) : Result :=
  laneOp (encLV 0x32 0x04 d.val a.val b.val m x 0#3) 2 d.val (fun r => longActive r m) (zeroing m)
    (fun r i => laneFit (saturates x r.mw) (Int.fdiv ((r.rv a.val i).toInt * (r.rv b.val i).toInt) 32768)) e s
/-- VNEG (R58). -/
def execVneg (e : EngId) (d a : Fin 16) (m : LMask) (x : Sfx) (s : State) : Result :=
  laneOp (encLV 0x32 0x02 d.val a.val 0 m x 0#3) 1 d.val (fun r => longActive r m) (zeroing m)
    (fun r i => laneQuiet (saturates x r.mw) (-(r.rv a.val i).toInt)) e s
/-- VABS (R58). -/
def execVabs (e : EngId) (d a : Fin 16) (m : LMask) (x : Sfx) (s : State) : Result :=
  laneOp (encLV 0x32 0x03 d.val a.val 0 m x 0#3) 1 d.val (fun r => longActive r m) (zeroing m)
    (fun r i => laneQuiet (saturates x r.mw) ((r.rv a.val i).toInt.natAbs : Int)) e s
/-- VMIN (R58). -/
def execVmin (e : EngId) (d a b : Fin 16) (m : LMask) (s : State) : Result :=
  laneOp (encLV 0x32 0x06 d.val a.val b.val m .mw 0#3) 1 d.val (fun r => longActive r m) (zeroing m)
    (fun r i => { val := if (r.rv a.val i).toInt ≤ (r.rv b.val i).toInt then r.rv a.val i else r.rv b.val i }) e s
/-- VMAX (R58). -/
def execVmax (e : EngId) (d a b : Fin 16) (m : LMask) (s : State) : Result :=
  laneOp (encLV 0x32 0x07 d.val a.val b.val m .mw 0#3) 1 d.val (fun r => longActive r m) (zeroing m)
    (fun r i => { val := if (r.rv a.val i).toInt ≤ (r.rv b.val i).toInt then r.rv b.val i else r.rv a.val i }) e s
/-- VAND (R158). -/
def execVand (e : EngId) (d a b : Fin 16) (m : LMask) (s : State) : Result :=
  laneOp (encLV 0x32 0x08 d.val a.val b.val m .mw 0#3) 1 d.val (fun r => longActive r m) (zeroing m)
    (fun r i => { val := r.rv a.val i &&& r.rv b.val i }) e s
/-- VOR (R158). -/
def execVor (e : EngId) (d a b : Fin 16) (m : LMask) (s : State) : Result :=
  laneOp (encLV 0x32 0x09 d.val a.val b.val m .mw 0#3) 1 d.val (fun r => longActive r m) (zeroing m)
    (fun r i => { val := r.rv a.val i ||| r.rv b.val i }) e s
/-- VXOR (R158). -/
def execVxor (e : EngId) (d a b : Fin 16) (m : LMask) (s : State) : Result :=
  laneOp (encLV 0x32 0x0A d.val a.val b.val m .mw 0#3) 1 d.val (fun r => longActive r m) (zeroing m)
    (fun r i => { val := r.rv a.val i ^^^ r.rv b.val i }) e s
/-- VMOV (R157, R158): a move, which leaves the lane flags unchanged (R59). -/
def execVmov (e : EngId) (f : VMv) (s : State) : Result :=
  match f with
  | .s d b =>
    issueRegs { words := encSV 0x25 d.val b.val 0, lacks := true, writes := [.v d.val] } (fun _ _ => {})
      (fun rd r => r.putLanes d.val (shortActive rd) false fun i => rd.rv b.val i) e s
  | .l d a m =>
    issueRegs { words := encLV 0x32 0x0B d.val a.val 0 m .mw 0#3, lacks := true, writes := [.v d.val] } (fun _ _ => {})
      (fun rd r => r.putLanes d.val (longActive rd m) (zeroing m) fun i => rd.rv a.val i) e s
/-- VSPLAT (R58, R158). -/
def execVsplat (e : EngId) (d w : Fin 16) (m : LMask) (s : State) : Result :=
  laneOp (encLV 0x32 0x0C d.val 0 w.val m .mw 0#3) 1 d.val (fun r => longActive r m) (zeroing m)
    (fun r _ => { val := r.rw w.val }) e s
/-- VSEL (R58, R158). -/
def execVsel (e : EngId) (d a b : Fin 16) (sel : Fin 4) (m : LMask) (s : State) : Result :=
  laneOp (encLV 0x32 0x0D d.val a.val b.val m .mw (BitVec.ofNat 3 sel.val)) 1 d.val (fun r => longActive r m) (zeroing m)
    (fun r i => { val := if (r.rp sel.val).getLsbD i then r.rv a.val i else r.rv b.val i }) e s
/-- VSHL (R47, R58). -/
def execVshl (e : EngId) (d a w : Fin 16) (m : LMask) (x : Sfx) (s : State) : Result :=
  laneOp (encLV 0x32 0x10 d.val a.val w.val m x 0#3) 1 d.val (fun r => longActive r m) (zeroing m)
    (fun r i => laneFit (saturates x r.mw) (shiftExact (r.rv a.val i).toInt (r.rw w.val).toInt)) e s
/-- VSHR (R47, R58). -/
def execVshr (e : EngId) (d a w : Fin 16) (m : LMask) (x : Sfx) (s : State) : Result :=
  laneOp (encLV 0x32 0x11 d.val a.val w.val m x 0#3) 1 d.val (fun r => longActive r m) (zeroing m)
    (fun r i => laneFit (saturates x r.mw) (shiftExact (r.rv a.val i).toInt (-(r.rw w.val).toInt))) e s
/-- VSHLI (R158). -/
def execVshli (e : EngId) (d a i : Fin 16) (m : LMask) (x : Sfx) (s : State) : Result :=
  laneOp (encLV 0x32 0x12 d.val a.val i.val m x 0#3) 1 d.val (fun r => longActive r m) (zeroing m)
    (fun r j => laneFit (saturates x r.mw) (shiftExact (r.rv a.val j).toInt i.val)) e s
/-- VSHRI (R158): VSHL by −VB. -/
def execVshri (e : EngId) (d a i : Fin 16) (m : LMask) (x : Sfx) (s : State) : Result :=
  laneOp (encLV 0x32 0x13 d.val a.val i.val m x 0#3) 1 d.val (fun r => longActive r m) (zeroing m)
    (fun r j => laneFit (saturates x r.mw) (shiftExact (r.rv a.val j).toInt (-(i.val : Int)))) e s
/-- Lane i + k of the 32-lane concatenation, a below b (R58). -/
def slideLane (r : Regs) (a b k i : Nat) : Word := if i + k < 16 then r.rv a (i + k) else r.rv b (i + k - 16)
/-- VSLIDE (R58, R159). -/
def execVslide (e : EngId) (d a b k : Fin 16) (m : LMask) (s : State) : Result :=
  laneOp [(encLV 0x36 0 d.val a.val 0 m .mw 0#3).headD 0#16,
      BitVec.ofNat 16 (k.val * 2048 + b.val * 128 + (maskBits m).2 * 32)] 1 d.val (fun r => longActive r m) (zeroing m)
    (fun r i => { val := slideLane r a.val b.val k.val i }) e s

/-! ### Lane accumulators -/

/-- The shape of a lane accumulator instruction (R60): exact modulo 2^48, VV and VSO from the exact result. -/
def accOp (words : List Word) (u : Nat) (act : Regs → Nat → Bool) (f : Regs → Nat → Int) (e : EngId) (s : State) : Result :=
  issueRegs { words := words, lacks := true, writes := [.u u, .vv, .vso] } (fun _ _ => {})
    (fun rd r =>
      let ovr := fun i => f rd i != satInt 48 (f rd i)
      (r.setU u fun i => if act rd i then some (BitVec.ofInt 48 (f rd i)) else none).laneFlags (act rd) ovr ovr
        (fun _ => false)) e s

/-- The words of VMAC and VMACI. -/
def vaccWords (f : VAcc) (op fn : Nat) : List Word :=
  match f with
  | .s u d b => encSV op d.val b.val u.val
  | .l u a b m => encLV 0x33 fn u.val a.val b.val m .mw 0#3
/-- Their accumulator. -/
def vaccU : VAcc → Nat
  | .s u _ _ => u.val
  | .l u _ _ _ => u.val
/-- Their lanes. -/
def vaccArgs (f : VAcc) (r : Regs) (i : Nat) : Word × Word :=
  match f with
  | .s _ d b => (r.rv d.val i, r.rv b.val i)
  | .l _ a b _ => (r.rv a.val i, r.rv b.val i)
/-- Their active lanes. -/
def vaccAct (f : VAcc) (r : Regs) (i : Nat) : Bool :=
  match f with
  | .s _ _ _ => shortActive r i
  | .l _ _ _ m => longActive r m i

/-- VMAC (R60). -/
def execVmac (e : EngId) (f : VAcc) (s : State) : Result :=
  accOp (vaccWords f 0x23 0x00) (vaccU f) (vaccAct f)
    (fun r i => (r.ru (vaccU f) i).toInt + 2 * (vaccArgs f r i).1.toInt * (vaccArgs f r i).2.toInt) e s
/-- VMACI (R60). -/
def execVmaci (e : EngId) (f : VAcc) (s : State) : Result :=
  accOp (vaccWords f 0x24 0x01) (vaccU f) (vaccAct f)
    (fun r i => (r.ru (vaccU f) i).toInt + (vaccArgs f r i).1.toInt * (vaccArgs f r i).2.toInt) e s
/-- VMSU (R60). -/
def execVmsu (e : EngId) (u : Fin 4) (a b : Fin 16) (m : LMask) (s : State) : Result :=
  accOp (encLV 0x33 0x02 u.val a.val b.val m .mw 0#3) u.val (fun r => longActive r m)
    (fun r i => (r.ru u.val i).toInt - 2 * (r.rv a.val i).toInt * (r.rv b.val i).toInt) e s
/-- VMSUI (R60). -/
def execVmsui (e : EngId) (u : Fin 4) (a b : Fin 16) (m : LMask) (s : State) : Result :=
  accOp (encLV 0x33 0x03 u.val a.val b.val m .mw 0#3) u.val (fun r => longActive r m)
    (fun r i => (r.ru u.val i).toInt - (r.rv a.val i).toInt * (r.rv b.val i).toInt) e s
/-- VUADD (R60). -/
def execVuadd (e : EngId) (u : Fin 4) (a : Fin 16) (m : LMask) (s : State) : Result :=
  accOp (encLV 0x33 0x04 u.val a.val 0 m .mw 0#3) u.val (fun r => longActive r m)
    (fun r i => (r.ru u.val i).toInt + (r.rv a.val i).toInt) e s
/-- VUSUB (R60). -/
def execVusub (e : EngId) (u : Fin 4) (a : Fin 16) (m : LMask) (s : State) : Result :=
  accOp (encLV 0x33 0x05 u.val a.val 0 m .mw 0#3) u.val (fun r => longActive r m)
    (fun r i => (r.ru u.val i).toInt - (r.rv a.val i).toInt) e s
/-- VCLR (R60). -/
def execVclr (e : EngId) (f : VClr) (s : State) : Result :=
  match f with
  | .s u => accOp (encSV 0x27 0 0 u.val) u.val (fun r => shortActive r) (fun _ _ => 0) e s
  | .l u m => accOp (encLV 0x33 0x06 u.val 0 0 m .mw 0#3) u.val (fun r => longActive r m) (fun _ _ => 0) e s

/-! ### Lane narrowing -/

/-- One lane narrowed (R62): R30 with the lane's residue; result, V, the saturation marks, the next residue. -/
def laneNarrow (x : BitVec 48) (sh : Nat) (mode : BitVec 3) (sat : Bool) (res : Word) : LaneRes × Word :=
  let y := narrow 16 x.toInt sh mode sat res {}
  ({ val := y.1, ovr := y.2.1.v, limited := y.2.1.sat, sticky := y.2.1.so }, y.2.2)

/-- The shape of VRND (R62): in RESIDUE mode the lane residues are written first, so a destination that is the residue
register holds the narrowed result. (DEDUCED, log 15; DESIGN CHOICE, log 165; DESIGN CHOICE, log 193) -/
def vrndOp (words : List Word) (d u v : Nat) (sh : Nat) (act : Regs → Nat → Bool) (z : Bool) (mode : Regs → BitVec 3)
    (x : Sfx) (residue : Bool) (e : EngId) (s : State) : Result :=
  issueRegs { words := words, base := 4, lacks := true
              writes := [.v d, .vv, .vso, .vsat] ++ (if residue then [.v v] else []) }
    (fun rd _ => { emul := decide (6 ≤ (mode rd).toNat) })
    (fun rd r =>
      let y := fun i => laneNarrow (rd.ru u i) sh (mode rd) (saturates x rd.mw) (rd.rv v i)
      let r := if mode rd = 5#3 then r.setV v fun i => if act rd i then some (y i).2 else none else r
      (r.putLanes d (act rd) z fun i => (y i).1.val).laneFlags (act rd)
        (fun i => (y i).1.ovr) (fun i => (y i).1.sticky) (fun i => (y i).1.limited)) e s

/-- VRND (R62, R157, R159). -/
def execVrnd (e : EngId) (f : VRnd) (s : State) : Result :=
  match f with
  | .s d u v =>
    vrndOp (encSV 0x26 d.val v.val u.val) d.val u.val v.val 16 (fun r => shortActive r) false (fun r => r.mw.rnd) .mw true e s
  | .l d u sh v m x rnd =>
    vrndOp [(encLV 0x34 0 d.val v.val 0 m x 0#3).headD 0#16,
        BitVec.ofNat 16 (sh.val * 1024 + u.val * 256 + (maskBits m).2 * 32 + sfxCode x * 8 + rnd.toNat)]
      d.val u.val v.val sh.val (fun r => longActive r m) (zeroing m) (fun _ => rnd) x (decide (rnd = 5#3)) e s

/-! ### Rod sums over lanes -/

/-- The sum over active lanes. -/
def laneSum (act : Nat → Bool) (f : Nat → Int) : Int :=
  (List.range 16).foldl (fun t i => if act i then t + f i else t) 0

/-- KDOT (R63): scalar class; the lanes R56 activates for a short form. -/
def execKdot (e : EngId) (k : Fin 4) (a b : Fin 16) (s : State) : Result :=
  rodOp (encL0 0x2A 0x38 k.val a.val b.val) 4 k.val true (fun r =>
    rodAdd (r.rk k.val) (laneSum (shortActive r) fun i => 2 * (r.rv a.val i).toInt * (r.rv b.val i).toInt) r.fl) e s
/-- VUSUM (R63). -/
def execVusum (e : EngId) (k u : Fin 4) (s : State) : Result :=
  rodOp (encL0 0x2A 0x39 k.val u.val 0) 4 k.val true (fun r =>
    rodAdd (r.rk k.val) (laneSum (shortActive r) fun i => (r.ru u.val i).toInt) r.fl) e s

/-! ### Compares and predicates -/

/-- The shape of a lane compare (R58): only active lanes' bits of the predicate change; VV is unchanged. -/
def cmpLanes (fn : Nat) (p : Fin 4) (a b : Fin 16) (m : LMask) (f : Word → Word → Bool) (e : EngId) (s : State) : Result :=
  issueRegs { words := encLV 0x35 fn (4 * p.val) a.val b.val m .mw 0#3, lacks := true, writes := [.p p.val] } (fun _ _ => {})
    (fun rd r => r.setP p.val (wordOfBits fun i =>
      if longActive rd m i then f (rd.rv a.val i) (rd.rv b.val i) else (rd.rp p.val).getLsbD i)) e s
/-- VCMPEQ (R58). -/
def execVcmpeq (e : EngId) (p : Fin 4) (a b : Fin 16) (m : LMask) (s : State) : Result :=
  cmpLanes 0 p a b m (fun x y => x == y) e s
/-- VCMPLT (R58). -/
def execVcmplt (e : EngId) (p : Fin 4) (a b : Fin 16) (m : LMask) (s : State) : Result :=
  cmpLanes 1 p a b m (fun x y => decide (x.toInt < y.toInt)) e s
/-- VCMPLE (R58). -/
def execVcmple (e : EngId) (p : Fin 4) (a b : Fin 16) (m : LMask) (s : State) : Result :=
  cmpLanes 2 p a b m (fun x y => decide (x.toInt ≤ y.toInt)) e s

/-- The shape of a predicate result (R158): all 16 bits. -/
def predOp (words : List Word) (d : Nat) (f : Regs → Word) (e : EngId) (s : State) : Result :=
  issueRegs { words := words, lacks := true, writes := [.p d] } (fun _ _ => {}) (fun rd r => r.setP d (f rd)) e s
/-- PAND (R158). -/
def execPand (e : EngId) (d a b : Fin 4) (s : State) : Result :=
  predOp (encLV 0x35 4 (4 * d.val) a.val b.val .all .mw 0#3) d.val (fun r => r.rp a.val &&& r.rp b.val) e s
/-- POR (R158). -/
def execPor (e : EngId) (d a b : Fin 4) (s : State) : Result :=
  predOp (encLV 0x35 5 (4 * d.val) a.val b.val .all .mw 0#3) d.val (fun r => r.rp a.val ||| r.rp b.val) e s
/-- PXOR (R158). -/
def execPxor (e : EngId) (d a b : Fin 4) (s : State) : Result :=
  predOp (encLV 0x35 6 (4 * d.val) a.val b.val .all .mw 0#3) d.val (fun r => r.rp a.val ^^^ r.rp b.val) e s
/-- PNOT (R158). -/
def execPnot (e : EngId) (d a : Fin 4) (s : State) : Result :=
  predOp (encLV 0x35 7 (4 * d.val) a.val 0 .all .mw 0#3) d.val (fun r => ~~~(r.rp a.val)) e s
/-- PMOVW (R158). -/
def execPmovw (e : EngId) (d : Fin 4) (w : Fin 16) (s : State) : Result :=
  predOp (encLV 0x35 8 (4 * d.val) 0 w.val .all .mw 0#3) d.val (fun r => r.rw w.val) e s
/-- The number VMFF gives a register. -/
def vflagCode : VFlagReg → Nat
  | .vv => 0
  | .vso => 1
  | .vsat => 2
  | .p n => 4 + n.val
/-- VMFF (R158). -/
def execVmff (e : EngId) (d : Fin 16) (f : VFlagReg) (s : State) : Result :=
  issueRegs { words := encLV 0x35 9 d.val (vflagCode f) 0 .all .mw 0#3, lacks := true, writes := [.w d.val] } (fun _ _ => {})
    (fun rd r => r.setW d.val (match f with | .vv => rd.vv | .vso => rd.vso | .vsat => rd.vsat | .p n => rd.rp n.val)) e s
/-- VMTF (R59, R158): the explicit lane-flag write. -/
def execVmtf (e : EngId) (f : VFlag3) (w : Fin 16) (s : State) : Result :=
  issueRegs { words := encLV 0x35 10 0 (match f with | .vv => 0 | .vso => 1 | .vsat => 2) w.val .all .mw 0#3, lacks := true
              writes := [match f with | .vv => .vv | .vso => .vso | .vsat => .vsat] } (fun _ _ => {})
    (fun rd r => match f with
      | .vv => { r with vv := rd.rw w.val }
      | .vso => { r with vso := rd.rw w.val }
      | .vsat => { r with vsat := rd.rw w.val }) e s

end Sys2Proof.Machine
end

