-- ==== Sys2Proof/Machine/LongArith.lean ====
section
/-! DEFINITION. The long and address instructions (R154) and the carry instructions of R54. -/
namespace Sys2Proof.Machine

/-- LADD (R154). -/
def execLadd (e : EngId) (d a b : Fin 16) (x : Sfx) (s : State) : Result :=
  longOp (encL 0x29 0x00 (2 * d.val) (2 * a.val) (2 * b.val) x 0#3) 1 d.val (fun r =>
    fit 32 (saturates x r.mw) ((r.rl a.val).toInt + (r.rl b.val).toInt) r.fl) e s
/-- LSUB (R154). -/
def execLsub (e : EngId) (d a b : Fin 16) (x : Sfx) (s : State) : Result :=
  longOp (encL 0x29 0x01 (2 * d.val) (2 * a.val) (2 * b.val) x 0#3) 1 d.val (fun r =>
    fit 32 (saturates x r.mw) ((r.rl a.val).toInt - (r.rl b.val).toInt) r.fl) e s
/-- LADDU (R154). -/
def execLaddu (e : EngId) (d a b : Fin 16) (s : State) : Result :=
  longOp (encL0 0x29 0x02 (2 * d.val) (2 * a.val) (2 * b.val)) 1 d.val (fun r => addU 32 (r.rl a.val) (r.rl b.val) r.fl) e s
/-- LSUBU (R154). -/
def execLsubu (e : EngId) (d a b : Fin 16) (s : State) : Result :=
  longOp (encL0 0x29 0x03 (2 * d.val) (2 * a.val) (2 * b.val)) 1 d.val (fun r => subU 32 (r.rl a.val) (r.rl b.val) r.fl) e s
/-- LABS (R52). -/
def execLabs (e : EngId) (d a : Fin 16) (x : Sfx) (s : State) : Result :=
  longOp (encL 0x29 0x04 (2 * d.val) (2 * a.val) 0 x 0#3) 1 d.val (fun r =>
    quiet 32 (saturates x r.mw) ((r.rl a.val).toInt.natAbs : Int) r.fl) e s
/-- LNEG (R52). -/
def execLneg (e : EngId) (d a : Fin 16) (x : Sfx) (s : State) : Result :=
  longOp (encL 0x29 0x05 (2 * d.val) (2 * a.val) 0 x 0#3) 1 d.val (fun r =>
    quiet 32 (saturates x r.mw) (-(r.rl a.val).toInt) r.fl) e s
/-- LADDC (R54). -/
def execLaddc (e : EngId) (d a b : Fin 16) (s : State) : Result :=
  longOp (encL0 0x29 0x06 (2 * d.val) (2 * a.val) (2 * b.val)) 1 d.val (fun r => laddc (r.rl a.val) (r.rl b.val) r.fl) e s
/-- LSUBC (R54). -/
def execLsubc (e : EngId) (d a b : Fin 16) (s : State) : Result :=
  longOp (encL0 0x29 0x07 (2 * d.val) (2 * a.val) (2 * b.val)) 1 d.val (fun r => lsubc (r.rl a.val) (r.rl b.val) r.fl) e s
/-- LSAT (R54). -/
def execLsat (e : EngId) (d a : Fin 16) (s : State) : Result :=
  longOp (encL0 0x29 0x08 (2 * d.val) (2 * a.val) 0) 1 d.val (fun r => lsat (r.rl a.val) r.fl) e s
/-- LCMP (R154). -/
def execLcmp (e : EngId) (a b : Fin 16) (s : State) : Result :=
  flagOp (encL0 0x29 0x0A 0 (2 * a.val) (2 * b.val)) (fun r => cmpS 32 (r.rl a.val) (r.rl b.val) r.fl) e s
/-- LAND (R154). -/
def execLand (e : EngId) (d a b : Fin 16) (s : State) : Result :=
  longOp (encL0 0x29 0x0B (2 * d.val) (2 * a.val) (2 * b.val)) 1 d.val (fun r => plain (r.rl a.val &&& r.rl b.val) r.fl) e s
/-- LOR (R154). -/
def execLor (e : EngId) (d a b : Fin 16) (s : State) : Result :=
  longOp (encL0 0x29 0x0C (2 * d.val) (2 * a.val) (2 * b.val)) 1 d.val (fun r => plain (r.rl a.val ||| r.rl b.val) r.fl) e s
/-- LXOR (R154). -/
def execLxor (e : EngId) (d a b : Fin 16) (s : State) : Result :=
  longOp (encL0 0x29 0x0D (2 * d.val) (2 * a.val) (2 * b.val)) 1 d.val (fun r => plain (r.rl a.val ^^^ r.rl b.val) r.fl) e s
/-- LSHL (R47). -/
def execLshl (e : EngId) (d a : Fin 16) (t : Fin 32) (x : Sfx) (s : State) : Result :=
  longOp (encL 0x29 0x10 (2 * d.val) (2 * a.val) t.val x 0#3) 1 d.val (fun r =>
    fit 32 (saturates x r.mw) (shiftExact (r.rl a.val).toInt (r.rw t.val).toInt) r.fl) e s
/-- LSHR (R47). -/
def execLshr (e : EngId) (d a : Fin 16) (t : Fin 32) (x : Sfx) (s : State) : Result :=
  longOp (encL 0x29 0x11 (2 * d.val) (2 * a.val) t.val x 0#3) 1 d.val (fun r =>
    fit 32 (saturates x r.mw) (shiftExact (r.rl a.val).toInt (-(r.rw t.val).toInt)) r.fl) e s
/-- LSHRR (R48). -/
def execLshrr (e : EngId) (d a : Fin 16) (t : Fin 32) (x : Sfx) (s : State) : Result :=
  longOp (encL 0x29 0x12 (2 * d.val) (2 * a.val) t.val x 0#3) 1 d.val (fun r =>
    fit 32 (saturates x r.mw) (shiftRound (r.rl a.val).toInt (r.rw t.val).toInt) r.fl) e s
/-- LLSL (R49). -/
def execLlsl (e : EngId) (d a : Fin 16) (t : Fin 32) (s : State) : Result :=
  longOp (encL0 0x29 0x13 (2 * d.val) (2 * a.val) t.val) 1 d.val (fun r => lsl 32 (r.rl a.val) (r.rw t.val).toNat r.fl) e s
/-- LLSR (R49). -/
def execLlsr (e : EngId) (d a : Fin 16) (t : Fin 32) (s : State) : Result :=
  longOp (encL0 0x29 0x14 (2 * d.val) (2 * a.val) t.val) 1 d.val (fun r => lsr 32 (r.rl a.val) (r.rw t.val).toNat r.fl) e s
/-- LNORM (R51). -/
def execLnorm (e : EngId) (d : Fin 32) (a : Fin 16) (s : State) : Result :=
  wordOp (encL0 0x29 0x15 d.val (2 * a.val) 0) 1 d.val (fun r =>
    plain (BitVec.ofNat 16 (norm 32 (r.rl a.val).toInt)) r.fl) e s
/-- LMAC (R37). -/
def execLmac (e : EngId) (d : Fin 16) (a b : Fin 32) (x : Sfx) (s : State) : Result :=
  longOp (encL 0x29 0x18 (2 * d.val) a.val b.val x 0#3) 3 d.val (fun r =>
    lmac (saturates x r.mw) 1 (r.rl d.val) (r.rw a.val) (r.rw b.val) r.fl) e s
/-- LMSU (R37). -/
def execLmsu (e : EngId) (d : Fin 16) (a b : Fin 32) (x : Sfx) (s : State) : Result :=
  longOp (encL 0x29 0x19 (2 * d.val) a.val b.val x 0#3) 3 d.val (fun r =>
    lmac (saturates x r.mw) (-1) (r.rl d.val) (r.rw a.val) (r.rw b.val) r.fl) e s
/-- LMACC (R54): the saturating MULF may set SO and SAT first. -/
def execLmacc (e : EngId) (d : Fin 16) (a b : Fin 32) (s : State) : Result :=
  longOp (encL0 0x29 0x1A (2 * d.val) a.val b.val) 3 d.val (fun r =>
    let p := mulf true (r.rw a.val) (r.rw b.val) r.fl
    laddc (r.rl d.val) p.1 p.2) e s
/-- LMSUC (R54). -/
def execLmsuc (e : EngId) (d : Fin 16) (a b : Fin 32) (s : State) : Result :=
  longOp (encL0 0x29 0x1B (2 * d.val) a.val b.val) 3 d.val (fun r =>
    let p := mulf true (r.rw a.val) (r.rw b.val) r.fl
    lsubc (r.rl d.val) p.1 p.2) e s
/-- MACR (R37): the word in the high half, 0 in the low half; Z and N from the word. -/
def execMacr (e : EngId) (d : Fin 16) (a b : Fin 32) (s : State) : Result :=
  longOp (encL0 0x29 0x1C (2 * d.val) a.val b.val) 3 d.val (fun r =>
    let y := macr 1 (r.rl d.val) (r.rw a.val) (r.rw b.val) r.fl
    (y.1 ++ 0#16, y.2)) e s
/-- MSUR (R37). -/
def execMsur (e : EngId) (d : Fin 16) (a b : Fin 32) (s : State) : Result :=
  longOp (encL0 0x29 0x1D (2 * d.val) a.val b.val) 3 d.val (fun r =>
    let y := macr (-1) (r.rl d.val) (r.rw a.val) (r.rw b.val) r.fl
    (y.1 ++ 0#16, y.2)) e s
/-- RNDH (R31): HALF_UP at shift 16, saturating. -/
def execRndh (e : EngId) (d : Fin 32) (a : Fin 16) (s : State) : Result :=
  wordOp (encL0 0x29 0x1E d.val (2 * a.val) 0) 4 d.val (fun r =>
    let y := narrow 16 (r.rl a.val).toInt 16 2#3 true 0#16 r.fl
    (y.1, y.2.1)) e s
/-- EXTH (R154). -/
def execExth (e : EngId) (d : Fin 32) (a : Fin 16) (s : State) : Result :=
  wordMove (encL0 0x29 0x20 d.val (2 * a.val) 0) 1 d.val (fun r => (r.rl a.val).extractLsb' 16 16) e s
/-- EXTL (R154). -/
def execExtl (e : EngId) (d : Fin 32) (a : Fin 16) (s : State) : Result :=
  wordMove (encL0 0x29 0x21 d.val (2 * a.val) 0) 1 d.val (fun r => (r.rl a.val).extractLsb' 0 16) e s
/-- DEPH (R53). -/
def execDeph (e : EngId) (d : Fin 16) (a : Fin 32) (s : State) : Result :=
  longMove (encL0 0x29 0x22 (2 * d.val) a.val 0) 1 d.val (fun r => r.rw a.val ++ 0#16) e s
/-- DEPL (R53). -/
def execDepl (e : EngId) (d : Fin 16) (a : Fin 32) (s : State) : Result :=
  longMove (encL0 0x29 0x23 (2 * d.val) a.val 0) 1 d.val (fun r => (r.rw a.val).signExtend 32) e s
/-- LDIV (R42, R44): quotient to the low word, remainder to the high word. -/
def execLdiv (e : EngId) (d a : Fin 16) (t : Fin 32) (s : State) : Result :=
  divOp (encL0 0x29 0x28 (2 * d.val) (2 * a.val) t.val) 34 [.w (2 * d.val), .w (2 * d.val + 1), .sw]
    (fun r => r.rw t.val == 0#16)
    (fun rd r =>
      let q := divS (rd.rl a.val).toInt (rd.rw t.val).toInt rd.fl
      ((r.setW (2 * d.val) q.1).setW (2 * d.val + 1) q.2.1).setFl q.2.2) e s
/-- LDIVU (R43, R44). -/
def execLdivu (e : EngId) (d a : Fin 16) (t : Fin 32) (s : State) : Result :=
  divOp (encL0 0x29 0x29 (2 * d.val) (2 * a.val) t.val) 34 [.w (2 * d.val), .w (2 * d.val + 1), .sw]
    (fun r => r.rw t.val == 0#16)
    (fun rd r =>
      let q := divU (rd.rl a.val).toNat (rd.rw t.val).toNat rd.fl
      ((r.setW (2 * d.val) q.1).setW (2 * d.val + 1) q.2.1).setFl q.2.2) e s
/-- AADDW (R154). -/
def execAaddw (e : EngId) (d a : Fin 16) (t : Fin 32) (s : State) : Result :=
  addrMove (encL0 0x29 0x30 d.val a.val t.val) d.val (fun r => r.ra a.val + (r.rw t.val).signExtend 48) e s
/-- AADDL (R154). -/
def execAaddl (e : EngId) (d a b : Fin 16) (s : State) : Result :=
  addrMove (encL0 0x29 0x31 d.val a.val (2 * b.val)) d.val (fun r => r.ra a.val + (r.rl b.val).signExtend 48) e s
/-- ADIFF (R154): the low 32 bits of the difference. -/
def execAdiff (e : EngId) (d a b : Fin 16) (s : State) : Result :=
  longMove (encL0 0x29 0x33 (2 * d.val) a.val b.val) 1 d.val (fun r => (r.ra a.val - r.ra b.val).extractLsb' 0 32) e s
/-- ACMP (R154). -/
def execAcmp (e : EngId) (a b : Fin 16) (s : State) : Result :=
  flagOp (encL0 0x29 0x34 0 a.val b.val) (fun r =>
    { r.fl with c := decide ((r.ra a.val).toNat ≥ (r.ra b.val).toNat), z := r.ra a.val == r.ra b.val, v := false, n := false }) e s
/-- LADDI, LADDI.s, LADDI.w (R154). -/
def execLaddi (e : EngId) (d : Fin 16) (i : Long) (x : ISfx) (s : State) : Result :=
  longOp (encX 0x38 (2 * d.val) (1 + sfxCode x) i) 1 d.val (fun r =>
    fit 32 (saturates x r.mw) ((r.rl d.val).toInt + i.toInt) r.fl) e s
/-- LCMPI (R154). -/
def execLcmpi (e : EngId) (d : Fin 16) (i : Long) (s : State) : Result :=
  flagOp (encX 0x38 (2 * d.val) 4 i) (fun r => cmpS 32 (r.rl d.val) i r.fl) e s
/-- AADDI (R154). -/
def execAaddi (e : EngId) (d : Fin 16) (i : Long) (s : State) : Result :=
  addrMove (encX 0x38 d.val 6 i) d.val (fun r => r.ra d.val + i.signExtend 48) e s

end Sys2Proof.Machine
end

