-- ==== Sys2Proof/Machine/Pairing.lean ====
section
/-! DEFINITION. How two devices pair, keep each other's state and time, and resync (R366 to R373, R377, R378, R380, R393, R394). -/
namespace Sys2Proof.Machine

/-! ### The link -/

/-- A valid message from the twin has arrived (R387). -/
def State.heard (s : State) : State :=
  { s with tw := { s.tw with peer := { s.tw.peer with lastMsg := s.now } } }.count 3177 1

/-- The effect of a message that comes outside the mirror stream: none while the link is down. -/
def onLink (s : State) (f : State → State) : Result := .next (if s.linkUp then f s.heard else s)

/-- The device applies this message of the mirror stream (R374): it follows, and the message is the next in MSEQ order, or the first. (DEDUCED, log 130) -/
def State.inOrder (s : State) (mseq : Nat) : Bool :=
  decide (2 ≤ s.role) && match s.tw.mseqRx with | some r => decide (mseq = (r + 1) % 2 ^ 32) | none => true

/-- The effect of a message of the mirror stream (R374). (DEDUCED, log 130) -/
def onMirror (s : State) (mseq : Nat) (f : State → State) : Result :=
  onLink s fun s => if s.inOrder mseq then f { s with tw := { s.tw with mseqRx := some mseq } } else s

/-- The heartbeat has been silent for 50 µs, and messages have (R387). (DEDUCED, log 123) -/
def State.hbSilent (s : State) : Bool := !s.tw.peer.hbSeen || usPassed s.tw.peer.lastHb s.now 50
/-- No valid message for 50 µs (R370, R387). -/
def State.linkSilent (s : State) : Bool := !s.linkUp || usPassed s.tw.peer.lastMsg s.now 50

/-! ### Pairing (R367, R368) -/

/-- What this device's HELLO says (R371). -/
def State.hello (s : State) : Hello :=
  { serial := (List.range 4).foldl (fun n i => n + (Config.fuse i).toNat * 65536 ^ i) 0, isaMajor := fld (s.reg 0x000002) 8 8
    isaMinor := fld (s.reg 0x000002) 0 8, silicon := (csrPeek s 0x000001).toNat, strap := s.bit 0x0F0000 6, role := s.role, eligible := s.eligible
    digest := s.pairDigest, coaches := s.admitted.length }

/-- The numbers HELLO carries. -/
def Hello.body (x : Hello) : List Nat :=
  [x.serial, x.silicon, x.isaMajor * 256 + x.isaMinor, if x.strap then 1 else 0, x.role, if x.eligible then 1 else 0, ofWords x.digest, x.coaches]

/-- What keeps the devices from pairing, as TW_REFUSE.REASON (R367, R368): both serve; other major ISA revisions; other pair digests;
no two lanes trained; no heartbeat seen. (DEDUCED, log 122) -/
def State.pairRefusal (s : State) (x : Hello) : Option Nat :=
  let y := s.hello
  if y.coaches ≠ 0 ∧ x.coaches ≠ 0 then some 3
  else if y.isaMajor ≠ x.isaMajor then some 2
  else if y.digest ≠ x.digest then some 1
  else if fld (s.reg 0x0F0000) 7 2 = 0 then some 4
  else if !s.tw.peer.hbSeen then some 5
  else none

/-- The cases of R367 make device y PRIMARY, x its twin: it alone holds coaches; or neither does, and it alone is eligible; or its strap
is 0 and the twin's 1; or, straps equal, its serial number is the lower. (DEDUCED, log 125) -/
def Hello.leadsOver (y x : Hello) : Bool :=
  if y.coaches ≠ 0 then true
  else if x.coaches ≠ 0 then false
  else if y.eligible != x.eligible then y.eligible
  else if y.strap != x.strap then !y.strap
  else decide (y.serial < x.serial)

/-- The device seeks a twin (R367): it serves alone, as SOLO or as a PRIMARY whose twin is gone, and has not paired. (DEDUCED, log 122) -/
def State.seeksTwin (s : State) : Bool := (decide (s.role = 0) || decide (s.role = 1)) && !s.tw.paired

/-- Pairing is refused for a reason of TW_REFUSE (R368), to be tried again in 1 s; after BOTH_SERVING only TWIN_RESYNC ends it. -/
def State.refusePair (s : State) (r : Nat) : State :=
  let s := (s.setReg 0x0F0003 (BitVec.ofNat 16 r)).setBit 0x0F0002 8
  { s with tw := { s.tw with pairRetryAt := if r = 3 then none else some (s.now + 2 ^ 48) } }

/-- Pairing evaluated on the contents of both HELLOs (R367, R368). (DEDUCED, log 122; DEDUCED, log 124; DEDUCED, log 125) -/
def State.evalPairing (s : State) (x : Hello) : State :=
  if !s.seeksTwin then s
  else
    match s.pairRefusal x with
    | some r => s.refusePair r
    | none =>
      let y := s.hello
      let s := { s with tw := { s.tw with pairRetryAt := none, paired := true } }.setReg 0x0F0003 0#16
      let s := if y.coaches = 0 ∧ x.coaches = 0 ∧ y.strap = x.strap then s.setBit 0x0F0002 7 else s
      if y.leadsOver x then (if s.mayLead || decide (s.role = 1) then s.becomePrimary else s) else s.enterSyncing

/-- HELLO (R367): the twin's contents kept; pairing evaluated, but not between a refusal and its retry, and not after BOTH_SERVING,
which only TWIN_RESYNC ends. -/
def execHello (x : Hello) (s : State) : Result :=
  onLink s fun s =>
    let s := { s with tw := { s.tw with hello := some x, peer := { s.tw.peer with known := true, role := x.role, eligible := x.eligible } } }
    if s.tw.pairRetryAt.isSome ∨ s.reg 0x0F0003 = 3#16 then s else s.evalPairing x

/-- HELLO_SEND (R371): every 1 ms until paired. (DESIGN CHOICE, log 161) -/
def execHelloSend (s : State) : Result :=
  .next (
    if !s.seeksTwin ∨ !usPassed s.tw.helloAt s.time 1000 then s
    else { s with tw := { s.tw with helloAt := s.time } }.linkSend 1 0 s.hello.body)

/-- A device whose image declares a pair seeks its twin over a link that is not trained (R368): the reason is TRAINING. (DEDUCED, log 122) -/
def State.untrained (s : State) : Bool := s.seeksTwin && s.paired && !s.linkUp && s.regOn 0x0F0000 && decide (s.reg 0x0F0003 ≠ 3#16)

/-- PAIR_RETRY (R368): every 1 s after a refusal, on the twin's last HELLO; where the link is not trained, at once and then every 1 s. (DEDUCED, log 122) -/
def execPairRetry (s : State) : Result :=
  .next (
    let due := match s.tw.pairRetryAt with | some t => decide (t ≤ s.now) | none => s.untrained
    if !due then s
    else if !s.linkUp then (if s.untrained then s.refusePair 4 else s)
    else match s.tw.hello with
      | some x => s.evalPairing x
      | none => s)

/-! ### Serving a resync (R394) -/

/-- One object sent as STATE. -/
def State.sendState (s : State) (x : StateObj) : State :=
  s.linkOut fun len fv => .state len (x.sealed fv)

/-- The objects a resync sends: instances with their ledgers, programs, streams with their templates, contexts, classifier tables and
keys, boards, coaches, policing counts, the journal tail. (DEDUCED, log 139; DEDUCED, log 143) -/
def State.stateObjs (s : State) : List StateObj :=
  ((s.inst.filter fun x => decide (x.1 ≠ 0)).map fun x => .inst x.1 x.2 (s.reg (portal x.1 5)) (s.reg (portal x.1 13))) ++
    (s.ik.progs.flatMap fun x => [.prog x.1 x.2, .memory x.2.base (memWords s.mem x.2.base x.2.words)]) ++
    (s.gh.streams.flatMap fun x => [.stream x.1 x.2, .memory x.2.template (memWords s.mem x.2.template x.2.templateWords)]) ++
    (s.gh.srtp.map fun x => .ctx x.1 x.2) ++
    (s.gh.keys.filterMap fun x => x.2.map fun k => .key x.1 k) ++
    [.stash s.gh.stash, .hashes s.gh.hashA s.gh.hashB (s.bit 0x080100 14) (s.bit 0x080100 15)] ++
    (s.boards.map fun x => .board x.1 x.2) ++ (s.blocks.map fun x => .block x.1 x.2) ++
    (s.admitted.map fun x => .coach x.1 x.2) ++ (s.gh.police.map fun x => .police x.1 x.2) ++ [.journal s.jr.jring]

/-- The PRIMARY serves its twin's resync (R373, R394): every object, then each coach's state after its next write-back. -/
def State.serveResync (s : State) : State :=
  if s.role = 1 ∧ s.tw.resync = .idle ∧ s.tw.peer.role = 3 ∧ s.linkFits = true then
    let s := s.stateObjs.foldl (fun s x => s.sendState x) s
    let s := s.admitted.foldl (fun s x => s.modCoach x.1 fun k => { k with sendState := true, holdDigest := true }) s
    { s with tw := { s.tw with resync := .sending } }.resyncSent
  else s

/-- A coach as the device being synced installs it: it runs nothing of it before its state has come. (DEDUCED, log 139) -/
def Coach.asInstalled (k : Coach) : Coach :=
  { k with issued := none, running := none, sendState := false, unprotected := true, incoming := none, resume := none, zeros := [], stagedAt := none, fbList := none }

/-- An object installed (R394, R448). Records wait only on the device that formed them. (DEDUCED, log 139) -/
def State.install (s : State) (x : StateObj) : State :=
  match x with
  | .inst n i h t =>
    ((s.setInst n { i with heldCpl := none, behind := [], cplFirst := false, late := false, notices := [], ledger := { i.ledger with held := [], gap := false } }).setReg (portal n 5) h).setReg
      (portal n 13) t
  | .prog k p => { s with ik := { s.ik with progs := tblSet {} s.ik.progs k p } }
  | .stream i y => s.setStream i y
  | .ctx i y => { s with gh := { s.gh with srtp := tblSet {} s.gh.srtp i y } }
  | .key p k => { s with gh := { s.gh with keys := tblSet none s.gh.keys p (some k) } }
  | .stash l => { s with gh := { s.gh with stash := l } }
  | .hashes a b second rk => ({ s with gh := { s.gh with hashA := a, hashB := b } }.putBit 0x080100 14 second).putBit 0x080100 15 rk
  | .board b d => { s with boards := tblSet {} s.boards b d }
  | .block k y => { s with blocks := tblSet {} s.blocks k y }
  | .coach c k => s.setCoach c k.asInstalled
  | .police k p => { s with gh := { s.gh with police := tblSet {} s.gh.police k p } }
  | .memory pa ws => s.writeMem pa ws
  | .journal l => { s with jr := { s.jr with jtwin := l } }

/-- STATE (R394): a chunk of the primary's state reaches the device being synced. -/
def execState (x : StateObj) (s : State) : Result := onLink s fun s => if s.role = 3 then s.install x else s

/-- COACH_STATE (R384, R394): coach c's state, which holds from period h, is to be installed before that period is staged; an
UNPROTECTED coach runs again from it. (DEDUCED, log 140) -/
def execCoachState (c h : Nat) (words : List Word) (s : State) : Result :=
  onLink s fun s =>
    if s.leads ∨ (s.coach c).valid = false then s
    else
      s.modCoach c fun k =>
        { k with incoming := some (h, words), resume := if k.unprotected then some h else k.resume, unprotected := false, holdDigest := true }

/-- STATE_DONE (R394): everything up to its MSEQ is applied, so the device is a synced SECONDARY; the manager's TWIN_RESYNC completes. -/
def execStateDone (mseq : Nat) (s : State) : Result :=
  onLink s fun s =>
    let ahead := match s.tw.mseqRx with | some r => decide (0 < (BitVec.ofNat 32 mseq - BitVec.ofNat 32 r).toInt) | none => false
    if s.role ≠ 3 ∨ ahead = true then s
    else
      let old := s.twStatus
      let s := (s.setRole 2 true).setBit 0x0F0002 10
      let s := s.journal { origin := .self, target := .csr 0x0F0000, old := old, new := s.twStatus }
      match (s.instAt 0).busy with
      | some b => if b.wait = .resync then s.complete 0 { status := .ok, tag := b.tag, op := b.op, detail := 0, result := 0 } else s
      | none => s

/-- RESYNC_START (R394): a SECONDARY with SYNC = 0 resyncs by itself while the link is up and R373 does not hold it back. -/
def execResyncStart (s : State) : Result :=
  .next (
    if s.role = 2 ∧ s.sync = false ∧ s.linkUp = true ∧ s.linkFits = true then
      let old := s.twStatus
      let s := s.enterSyncing
      s.journal { origin := .self, target := .csr 0x0F0000, old := old, new := s.twStatus }
    else s)

/-! ### BEAT and TIME -/

/-- Frames that this device reports in service, one bit each (R371, R378). -/
def State.framesUp (s : State) : Nat :=
  ((List.range 24).filter fun f => decide ((s.frameAt f).st = 0) && frameOn s f).foldl (fun n f => n + 2 ^ f) 0

/-- A frame has left service on the secondary (R378): the primary drains it, and compares no digest of its coaches before their state has
been sent. (DEDUCED, log 128) -/
def State.twinLost (s : State) (f : Nat) : State :=
  let s := (s.admitted.filter fun x => decide (frameOf x.2.reck = f)).foldl (fun s x =>
    (s.modCoach x.1 fun k => { k with holdDigest := true }).dropDigests x.1) s
  s.drain f .twin

/-- BEAT (R371, R377, R378, R394): the twin's report. A PRIMARY drains what its twin has lost, but a frame that it drains itself on both
devices, hands over as soon as its twin is ready when
its own checking is broken (R477), and serves the resync of a twin in SYNCING. -/
def execBeat (t role : Nat) (sync eligible : Bool) (frames mseq : Nat) (s : State) : Result :=
  onLink s fun s =>
    let was := s.tw.peer
    let p := { was with known := true, role := role % 4, sync := sync, eligible := eligible, frames := frames, mseq := mseq, beat := t }
    let done := decide (role % 4 ≠ 3)
    let paired := s.tw.paired || decide (2 ≤ role % 4)
    let s := { s with tw := { s.tw with peer := p, resync := (if done then .idle else s.tw.resync), paired := paired } }
    if s.role ≠ 1 then s
    else
      let lost := (List.range 24).filter fun f =>
        decide (was.frames / 2 ^ f % 2 = 1) && decide (frames / 2 ^ f % 2 = 0) && decide ((s.frameAt f).st = 0)
      let s := if sync then lost.foldl (fun s f => s.twinLost f) s else { s with tw := { s.tw with digests := [], twinDigests := [] } }
      let s := if s.bit 0x3C0000 15 then s.startHandover else s
      s.serveResync

/-- BEAT_SEND (R371): every 10 µs. (DESIGN CHOICE, log 161) -/
def execBeatSend (s : State) : Result :=
  .next (
    if !s.linkUp ∨ !usPassed s.tw.beatAt s.time 10 then s
    else
      let (t, s) := s.readTime
      let b := fun (x : Bool) => if x then 1 else 0
      { s with tw := { s.tw with beatAt := s.time } }.linkSend 2 0
        [t, s.role, b s.sync, b s.eligible, s.framesUp, s.tw.mseqRx.getD 0])

/-- The link's asymmetry in device units, as the calibration table gives it (R380, R429). -/
def State.linkAsymmetry (s : State) : Nat :=
  match s.calibration with
  | some a => a.fields.getD 0 0
  | none => 0

/-- TIME (R380): the twin sent it at tx and received this device's last at rx. A device that follows corrects its
time by the increment, and reads SERVO LOCKED while its time is within 4 ns of the primary's, ACQUIRING else. (DEDUCED, log 133) -/
def execTime (tx rx : Nat) (s : State) : Result :=
  onLink s fun s =>
    let (t, s) := s.readTime
    let s := { s with tw := { s.tw with timeRx := t } }
    match s.tw.timeTx with
    | some t0 =>
      if s.leads then s
      else
        let delay := (((t : Int) - t0) - ((tx : Int) - rx)) / 2 - s.linkAsymmetry
        let err := (t : Int) - (tx + delay)
        let near := decide (err.natAbs ≤ 4 * 2 ^ 48 / 10 ^ 9)
        (if err = 0 then s else s.slew).setServo (if near then 2 else 1)
    | none => s

/-- TIME_SEND (R371): every 1 ms. (DESIGN CHOICE, log 161) -/
def execTimeSend (s : State) : Result :=
  .next (
    if !s.linkUp ∨ !(match s.tw.timeTx with | some t => usPassed t s.time 1000 | none => true) then s
    else
      let (t, s) := s.readTime
      { s with tw := { s.tw with timeTx := some t } }.linkSend 3 0 [t, s.tw.timeRx])

/-! ### The link's own events (R370, R373, R387, R393) -/

/-- A PRIMARY whose twin is gone, link and heartbeat both, serves on as SOLO. (DEDUCED, log 127) -/
def State.aloneCheck (s : State) : State :=
  if s.role = 1 ∧ s.linkUp = false ∧ s.hbSilent = true then s.setRole 0 false else s

/-- A planned handover does not take place; the manager's TWIN_SWITCH, if it waits, is refused as TWIN_NOT_READY. -/
def State.handoverOff (s : State) : State :=
  let s := { s with tw := { s.tw with handover := none } }
  match (s.instAt 0).busy with
  | some b => if b.wait = .handover then s.complete 0 { status := .stateConflict, tag := b.tag, op := b.op, detail := 0x61, result := 0 } else s
  | none => s

/-- What the link's loss ends: the twin is known no more, and a planned handover does not take place. (DEDUCED, log 127) -/
def State.peerGone (s : State) : State :=
  let p := { s.tw.peer with known := false, sync := false, eligible := false, frames := 0 }
  let tw := { s.tw with peer := p, hello := none, paired := false, pairRetryAt := if s.role = 0 then s.tw.pairRetryAt else none, resync := .idle
                        digests := [], twinDigests := [], timeTx := none }
  State.handoverOff { s.setReg 0x0F0000 (putFld (putFld (s.reg 0x0F0000) 10 1 0) 7 2 0) with tw := tw }

/-- LINK_DOWN (R370, R387), after 50 µs with no reception, or else after 16 retries: a SECONDARY whose twin's heartbeat goes on sets LINK_LOST and loses SYNC; a device being synced begins
anew once the link is back; a PRIMARY left alone becomes SOLO. (DEDUCED, log 128; DEDUCED, log 129) -/
def execLinkDown (s : State) : Result :=
  .next (
    if !s.linkUp then s
    else
      let s := (if s.linkSilent then s else s.count 3178 16).peerGone
      if s.role = 2 then (if s.sync && !s.hbSilent then (s.setBit 0x0F0002 2).syncLost else s)
      else if s.role = 3 then s.enterSyncing
      else s.aloneCheck)

/-- Lanes too few for the admitted use (R373): a SECONDARY loses SYNC, a PRIMARY stops FRAME and CUT. -/
def State.lanesCheck (s : State) : State :=
  if s.linkFits then s
  else if s.role = 2 then (s.setBit 0x0F0002 2).syncLost
  else { s with tw := { s.tw with mirrorHold := true } }

/-- LANE_DOWN (R370, R373): the link runs on two lanes. -/
def execLaneDown (s : State) : Result :=
  .next (
    if s.linkUp && decide (fld (s.reg 0x0F0000) 7 2 = 2) then
      ((s.setReg 0x0F0000 (putFld (s.reg 0x0F0000) 7 2 1)).setBit 0x0F0002 9).lanesCheck
    else s)

/-- LANE_RETURN (R373): four lanes again. -/
def execLaneReturn (s : State) : Result :=
  .next (
    if s.linkUp then { s.setReg 0x0F0000 (putFld (s.reg 0x0F0000) 7 2 2) with tw := { s.tw with mirrorHold := false } } else s)

/-- LINK_UP (R370, R393): the link has trained on four lanes or two. Of two devices both PRIMARY, the one with the later TW_TAKEOVER_T
enters SYNCING, posts TWIN_DIVERGED and sets DIVERGED. (DEDUCED, log 124) -/
def execLinkUp (four : Bool) (peerRole : Fin 4) (peerTakeover : Nat) (s : State) : Result :=
  .next (
    if s.linkUp ∨ !s.domainOn 31 then s
    else
      let s := s.setReg 0x0F0000 (putFld (putFld (s.reg 0x0F0000) 10 1 1) 7 2 (if four then 2 else 1))
      let s := s.setReg 0x0F0003 0#16
      let s := if four then s else s.setBit 0x0F0002 9
      let s := { s with tw := { s.tw with mirrorHold := false, peer := { s.tw.peer with lastMsg := s.now, role := peerRole.val } } }
      if s.role = 1 ∧ peerRole.val = 1 ∧ peerTakeover < s.regs 0x0F0008 6 then
        (s.enterSyncing.notice 0 6 0).setBit 0x0F0002 11
      else s.lanesCheck)

/-- HEARTBEAT_EDGE (R386): an edge on TWIN_HB_IN. -/
def execHeartbeatEdge (s : State) : Result :=
  .next { s with tw := { s.tw with peer := { s.tw.peer with hbSeen := true, lastHb := s.now } } }

/-- HB_FAULT (R387): the heartbeat has been silent for 50 µs. On a SECONDARY whose link goes on it is a fault, and SYNC stays. (DEDUCED, log 142) -/
def execHbFault (s : State) : Result :=
  .next (
    if s.tw.peer.hbSeen && s.hbSilent then
      let s1 := { s with tw := { s.tw with peer := { s.tw.peer with hbSeen := false } } }
      if s.role = 2 then (if s.linkSilent then s else s1.setBit 0x0F0002 3) else s1.aloneCheck
    else s)

end Sys2Proof.Machine
end

