-- ==== Sys2Proof/Machine/RegCmds.lean ====
section
/-! DEFINITION. The register accesses that are commands of their own (R7 to R10, R290, R294, R295, R300, R317 and the rules of
each register): a write of the register's last word, by an agent, with the words it holds. -/
namespace Sys2Proof.Machine

/-- NP_SET_COMMIT (R323). -/
def execNpSetCommit (ag : Agent) (w : Word) (s : State) : Result := .next (csrWrite ag 0x01000D w s)

/-- NP_INC_COMMIT (R320). -/
def execNpIncCommit (ag : Agent) (w : Word) (s : State) : Result := .next (csrWrite ag 0x010015 w s)

/-- GSTART_COMMIT (R342). -/
def execGstartCommit (ag : Agent) (w : Word) (s : State) : Result := .next (csrWrite ag 0x010033 w s)

/-- ALARM_COMMIT (R335): the compare value's group, or NP_ALM_CTRL. -/
def execAlarmCommit (ag : Agent) (n : Fin 16) (value : Bool) (w : Word) (s : State) : Result :=
  .next (csrWrite ag (almBase n.val + (if value then 5 else 10)) w s)

/-- TIMER_COMPARE_COMMIT (R335): the compare value's group, or FR_TMR_CTRL. -/
def execTimerCompareCommit (ag : Agent) (f : Fin 24) (t : Fin 8) (value : Bool) (w : Word) (s : State) : Result :=
  .next (csrWrite ag (tmrBase f.val t.val + (if value then 5 else 0)) w s).watchdogs

/-- TIMER_COUNT_COMMIT (R344). -/
def execTimerCountCommit (ag : Agent) (f : Fin 24) (t : Fin 8) (w : Word) (s : State) : Result :=
  .next (csrWrite ag (tmrBase f.val t.val + 13) w s)

/-- CAPNOW (R343): a write of FR_TMR_CTRL with CAPNOW = 1. -/
def execCapnow (ag : Agent) (f : Fin 24) (t : Fin 8) (w : Word) (s : State) : Result :=
  .next (csrWrite ag (tmrBase f.val t.val) (w ||| 2#16) s).watchdogs

/-- CAPTURE_READ (R333): NP_PPS_CAP, or a timer's capture register. -/
def execCaptureRead (ag : Agent) (timer : Option (Fin 24 × Fin 8)) (s : State) : Result :=
  .next (barRead ag (2 * match timer with
    | none => 0x010020
    | some (f, t) => tmrBase f.val t.val + 14) 2 s)

/-- COUNTER_SET (R359): the last word of TY_CNT_VAL. -/
def execCounterSet (ag : Agent) (i : Nat) (w : Word) (s : State) : Result :=
  .next (if i < 4096 then csrWrite ag (0x0E8000 + i * 8 + 3) w s else s)

/-- SELFTEST (R455, R456): a write of SELFTEST = 1; the compare points that stay silent and the digest comparator's silence.
Ignored while a self-test runs. -/
def execSelftest (ag : Agent) (silent : Word) (digest : Bool) (s : State) : Result :=
  .next (
    if !mayWrite ag 0x380001 || !s.regOn 0x380001 then s
    else
      let s := s.selfTestEntry ag 0x8000#16
      if s.bit 0x380000 13 then s else selfTest silent digest s)

/-- KICK (R386): a steward's write of TW_CTRL with KICK = 1; a halted pair makes none (R473). -/
def execKick (p : Fin 4) (w : Word) (s : State) : Result :=
  .next (if (s.engAt (stewardPair p.val)).run = .halted then s else csrWrite (.eng (192 + p.val)) 0x0F0001 (w ||| 1#16) s)

/-- GROUP_READ_LATCH (R289, R290): a read of 1 to 8 octets at a byte address of the register space. -/
def execGroupReadLatch (ag : Agent) (req : ReadReq) (s : State) : Result := .next (barRead ag req.byte req.octets s)

/-- GROUP_WRITE (R290). -/
def execGroupWrite (ag : Agent) (off : Nat) (w : Word) (s : State) : Result := .next (csrWrite ag off w s).watchdogs

/-- REGISTER_WRITE (R7, R9, R289, R508): a write of 1 to 8 octets at a byte address of the register space. -/
def execRegisterWrite (ag : Agent) (byte : Nat) (octets : List Byte) (s : State) : Result := .next (barWrite ag byte octets s).watchdogs

/-- SNAP_GO (R364). -/
def execSnapGo (ag : Agent) (w : Word) (s : State) : Result := .next (csrWrite ag 0x0E0004 (w ||| 0x8000#16) s)

/-- COURIER_GO (R208). -/
def execCourierGo (ag : Agent) (f : Fin 24) (c : Fin 16) (w : Word) (s : State) : Result :=
  .next (csrWrite ag (curBase f.val c.val + 3) (w ||| 0x8000#16) s)

/-- COURIER_ABORT (R210). (DESIGN CHOICE, log 66) -/
def execCourierAbort (ag : Agent) (f : Fin 24) (c : Fin 16) (w : Word) (s : State) : Result :=
  .next (csrWrite ag (curBase f.val c.val + 3) (w ||| 0x4000#16) s)

/-- A write by the host, which reaches nothing while PERST_N is low (R287). -/
def hostReg (off : Nat) (w : Word) (s : State) : State := if s.fn.perstLow then s else csrWrite .host off w s

/-- CMD_DOORBELL (R295). -/
def execCmdDoorbell (n : Fin 512) (w : Word) (s : State) : Result := .next (hostReg (portal n.val 4) w s)

/-- CPL_DOORBELL (R295). -/
def execCplDoorbell (n : Fin 512) (w : Word) (s : State) : Result := .next (hostReg (portal n.val 12) w s)

/-- PUNT_DOORBELL (R295). -/
def execPuntDoorbell (n : Fin 512) (w : Word) (s : State) : Result := .next (hostReg (portal n.val 20) w s)

/-- The configuration register of a ring: command, completion, punt. -/
def ringCfgOff (n : Fin 512) (ring : Fin 3) : Nat := portal n.val (3 + 8 * ring.val)

/-- RING_ENABLE (R294): a write of the ring's configuration with ENABLE = 1. -/
def execRingEnable (n : Fin 512) (ring : Fin 3) (w : Word) (s : State) : Result :=
  .next (hostReg (ringCfgOff n ring) (w ||| 0x8000#16) s)

/-- RING_DISABLE (R295): a write of the ring's configuration with ENABLE = 0. -/
def execRingDisable (n : Fin 512) (ring : Fin 3) (w : Word) (s : State) : Result :=
  .next (hostReg (ringCfgOff n ring) (w &&& 0x7FFF#16) s)

/-- ARM (R300): a write of HI_P_IRQ. -/
def execArm (n : Fin 512) (w : Word) (s : State) : Result := .next (hostReg (portal n.val 24) (w ||| 1#16) s)

/-- LEDGER_RING_DOORBELL (R353): a write of TY_LR_HEAD. -/
def execLedgerRingDoorbell (ag : Agent) (w : Word) (s : State) : Result := .next (csrWrite ag 0x0E0002 w s)

/-- MSIX_UNMASK (R317): a write of a vector's mask word with the mask clear. -/
def execMsixUnmask (v : Fin 2048) (w : Word) (s : State) : Result :=
  .next (hostReg (0x1000000 + v.val * 8 + 6) (w &&& 0xFFFE#16) s)

end Sys2Proof.Machine
end

