-- ==== Sys2Proof/Machine/ScanCmds.lean ====
section
/-! DEFINITION. The boundary scan (R480) and the SMBus target (R503). -/
namespace Sys2Proof.Machine

/-- The device with an instruction loaded in its test access port; EXTEST, CLAMP and HIGHZ take the balls, which stops TWIN_HB_OUT
and all egress until the next restart (R480). (PRESUMED, log 159) -/
def State.loadScan (s : State) (i : ScanInstr) (takes : Bool) : State :=
  let s := { s with pw := { s.pw with scan := i, scanTaken := s.pw.scanTaken || takes } }
  if takes then { s with tw := { s.tw with hbStopped := true } } else s

/-- BYPASS (IEEE 1149.1): one cell that captures 0. (PRESUMED, log 159) -/
def execBypass (s : State) : Result := .next ((s.loadScan .bypass false).send (.scan [false]))

/-- IDCODE: the identity of ID_IDCODE, lowest bit first. -/
def execIdcode (s : State) : Result :=
  .next ((s.loadScan .idcode false).send (.scan ((List.range 32).map fun i => (s.regs 0x00000C 2).testBit i)))

/-- The boundary register captured, shifted out, and loaded with what is shifted in. (DESIGN CHOICE, log 151) -/
def State.scanBoundary (s : State) (levels shiftIn : List Bool) : State :=
  { s with pw := { s.pw with boundary := shiftIn } }.send (.scan levels)

/-- SAMPLE_PRELOAD: the balls' levels are captured; the boundary register takes what is shifted in. -/
def execSamplePreload (levels shiftIn : List Bool) (s : State) : Result :=
  .next ((s.loadScan .sample false).scanBoundary levels shiftIn)

/-- EXTEST: as SAMPLE_PRELOAD, with the balls driven from the boundary register. (DESIGN CHOICE, log 151) -/
def execExtest (levels shiftIn : List Bool) (s : State) : Result :=
  .next ((s.loadScan .extest true).scanBoundary levels shiftIn)

/-- CLAMP: the balls hold the boundary register's values; the bypass cell is scanned. (PRESUMED, log 159) -/
def execClamp (s : State) : Result := .next ((s.loadScan .clamp true).send (.scan [false]))

/-- HIGHZ: the balls are not driven; the bypass cell is scanned. (DESIGN CHOICE, log 151; PRESUMED, log 159) -/
def execHighz (s : State) : Result := .next ((s.loadScan .highz true).send (.scan [false]))

/-- TRST_N: the test logic reset, IDCODE loaded as IEEE 1149.1 gives; the balls return to mission use. (PRESUMED, log 159) -/
def execTrstN (s : State) : Result := .next (s.loadScan .idcode false)

/-- The register an SMBus command code names (*SMBus command codes*). -/
def smbusReg (code : Nat) : Option Nat :=
  if code ≤ 1 then some code
  else if code = 2 then some 0x020009
  else if code = 3 then some 0x020000
  else if code = 4 then some 0x0F0000
  else if code = 5 then some 0x030000
  else if code = 6 then some 0x380000
  else if code = 7 then some 0x010401
  else if 8 ≤ code ∧ code ≤ 11 then some code
  else if 0x20 ≤ code ∧ code < 0x40 then some (0x020020 + code)
  else none

/-- The target's address: 0x4C + TWIN_ROLE as sampled at always-on power-up (R503). (PRESUMED, log 210) -/
def smbAddress : BitVec 7 := if Config.smbStrap then 0x4D#7 else 0x4C#7

/-- One bit of SMBus's CRC-8, x^8 + x^2 + x + 1. -/
def crc8Bit (c : Byte) : Byte := if c.getLsbD 7 then (c <<< 1) ^^^ 0x07#8 else c <<< 1

/-- The packet error code of SMBus 3.1 over the octets of a message (R503). (PRESUMED, log 210) -/
def crc8 (l : List Byte) : Byte := l.foldl (fun c b => (List.range 8).foldl (fun c _ => crc8Bit c) (c ^^^ b)) 0#8

/-- The word an SMBus command code reads (R503): a register's, 0 in a domain without power; in Night code 2 gives temperature sensor 3. -/
def State.smbusWord (s : State) (x : SmbusRead) (off : Nat) : Word :=
  if s.pw.wake = .night ∧ x.code = 2#8 then BitVec.ofInt 16 x.sensor3 else csrPeek s off

/-- SMB_ALERT_N is low (R503): a temperature at or above 100 °C, a thermal trip, or a steward checkstop. -/
def State.smbAlert (s : State) : Bool :=
  let hot := match s.pw.wake with
    | .night => (match s.pw.sensor3 with | some t => decide (400 ≤ t) | none => false)
    | _ => decide (400 ≤ (csrPeek s 0x020009).toInt)
  hot || s.bit 0x010400 0 || (s.regOn 0x380000 && s.bit 0x380000 12)

/-- READ_WORD (R503): the listed register's word, low octet first, then PEC where it is asked for. A code not listed is answered with NACK; the
Alert Response Address with this device's own while it alerts; another device's address not at all. (DEDUCED, log 152) -/
def execReadWord (x : SmbusRead) (s : State) : Result :=
  .next (
    let own := smbAddress ++ 0#1
    if x.address = 0x0C#7 then (if s.smbAlert then s.send (.smbus (some ([own] ++ if x.pec then [crc8 [0x19#8, own]] else []))) else s)
    else if x.address ≠ smbAddress then s
    else
      match smbusReg x.code.toNat with
      | none => s.send (.smbus none)
      | some off =>
        let w := s.smbusWord x off
        let l := [w.extractLsb' 0 8, w.extractLsb' 8 8]
        s.send (.smbus (some (l ++ if x.pec then [crc8 ([own, x.code, own ||| 1#8] ++ l)] else []))))

/-- SMBUS_WRITE (R503): any write is answered with NACK after its command byte. (DEDUCED, log 152) -/
def execSmbusWrite (s : State) : Result := .next (s.send (.smbus none))

end Sys2Proof.Machine
end

