-- ==== Sys2Proof/Machine/TimeCmds.lean ====
section
/-! DEFINITION. The commands of device time, alarms, timers and the time pins (R319 to R345), the courier's events (R209, R210),
the slot classifier and Tally's own acts (R350, R354, R361, R364). -/
namespace Sys2Proof.Machine

/-- TCXO_EDGE (R319): PPS_IN is sampled at the edge. (DEDUCED, log 1; DEDUCED, log 42) -/
def execTcxoEdge (pps : Bool) (s : State) : Result := .next (tcxoEdge pps s).deadlines

/-- TCXO_LOST (R327): the input is lost, or stays lost, over that many edges of the internal reference, PPS_IN at a level. (DEDUCED, log 42; DESIGN CHOICE, log 44) -/
def execTcxoLost (edges : RefEdges) (s : State) : Result := .next (tcxoLost edges.count edges.pps s).deadlines

/-- TCXO_RESUME (R327). -/
def execTcxoResume (s : State) : Result := .next (tcxoResume s)

/-- PPS_CAPTURE (R332): a rising edge on PPS_IN after a low level of that many nanoseconds. (DEDUCED, log 42) -/
def execPpsCapture (lowNs : Nat) (s : State) : Result := .next (ppsCapture lowNs s)

/-- PPS_OUT_RISE (R334). -/
def execPpsOutRise (s : State) : Result := .next (ppsRise s)

/-- PPS_OUT_FALL (R334). -/
def execPpsOutFall (s : State) : Result := .next (ppsFall s)

/-- ALARM_MATCH (R338): the next edge, where the comparator matches at it. (DEDUCED, log 41) -/
def execAlarmMatch (n : Fin 16) (s : State) : Result := .next (if s.alarmNext n.val then s.nextEdge.deadlines else s)

/-- TIMER_MATCH (R265, R344, R478): the next edge, where the frame timer matches at it. (DESIGN CHOICE, log 8; DEDUCED, log 41) -/
def execTimerMatch (f : Fin 24) (t : Fin 8) (s : State) : Result := .next (if s.timerFires f.val t.val then s.nextEdge.deadlines else s)

/-- GLOBAL_START (R342): the next edge, where device time reaches NP_GSTART at it. (DEDUCED, log 41) -/
def execGlobalStart (s : State) : Result := .next (if s.startNext then s.nextEdge.deadlines else s)

/-- ANALOGUE_CONDITION_LEFT (R339): comparator n's input is at v. -/
def execAnalogueConditionLeft (n : Fin 4) (v : Int) (s : State) : Result := .next (analogueLeft n v s)

/-- DESCRIPTOR_COMPLETE (R209). -/
def execDescriptorComplete (f : Fin 24) (c : Fin 16) (s : State) : Result := .next (descriptorComplete f c s)

/-- CHAIN_ERROR (R210). -/
def execChainError (f : Fin 24) (c : Fin 16) (s : State) : Result := .next (chainError f c s)

/-- TD_SAMPLE (R361). -/
def execTdSample (r : Fin 192) (s : State) : Result := .next (tdSample r.val s)

/-- Every increment of minute m outside best-effort jobs has been counted (R350): no departure of the minute is still to leave, and no
period of it is still to be issued or runs. (DEDUCED, log 187) -/
def State.minuteCounted (s : State) (m : Nat) : Bool :=
  (s.gh.board.all fun d => decide ((m + 1) * 60 * 2 ^ 48 ≤ d.release)) &&
    s.admitted.all fun x =>
      (match x.2.issued with | some g => decide (m < minuteOf (boundaryOf x.2.mul g)) | none => true) &&
        (match s.dueWaybill x.1 with | some g => decide (m < minuteOf (boundaryOf x.2.mul g)) | none => true)

/-- MINUTE_CLOSE (R350). (DESIGN CHOICE, log 8; DEDUCED, log 187) -/
def execMinuteClose (s : State) : Result := .next (if s.minuteCounted s.ty.minute then minuteClose s else s)

/-- LEDGER_RECORD_WRITE (R354). -/
def execLedgerRecordWrite (s : State) : Result := .next (ledgerRecordWrite s)

/-- SNAPSHOT_COMPLETE (R364). -/
def execSnapshotComplete (s : State) : Result := .next (snapshotComplete s)

/-- FENCE_TIMEOUT (R386). -/
def execFenceTimeout (s : State) : Result := .next (fenceTimeout s)

/-- INNKEEPER_PADDING (R511). -/
def execInnkeeperPadding (c : Nat) (s : State) : Result := .next (s.padLost c)

end Sys2Proof.Machine
end

