-- ==== Sys2Proof/Machine/TwinCmds.lean ====
section
/-! DEFINITION. The mirror stream as applied (R374 to R376, R379, R385), digests received (R382), handover, takeover and the board's
switch (R386 to R392). -/
namespace Sys2Proof.Machine

/-! ### FRAME (R240, R374) -/

/-- The octets, from destination address to FCS, of the frame a forwarded payload came in, by the classification key of its leg. (DESIGN CHOICE, log 134) -/
def State.frameOctets (s : State) (stream : Nat) (leg : Bool) (n : Nat) : Nat :=
  match s.allKeys.find? fun k => decide (k.stream = stream) && (k.leg == leg) with
  | some k => max 64 (14 + (if k.key.vid ≠ 0 then 4 else 0) + (if k.key.v6 then 40 else 20) + 8 + n + 4)
  | none => max 64 (14 + 20 + 8 + n + 4)

/-- A held frame of the same stream, leg, SSRC and sequence number (R379). -/
def Standby.matches_ (x : Standby) (stream : Nat) (leg : Bool) (ssrc : Long) (seq : Word) : Bool :=
  decide (x.stream = stream) && (x.leg == leg) && decide (x.ssrc = ssrc) && decide (x.seq = seq)

/-- FRAME (R240, R374, R379): the primary's frame goes through the same checks here, and ends the hold of its own copy. (DESIGN CHOICE, log 134) -/
def execFrame (mseq stamp : Nat) (port : Fin 8) (stream : Nat) (leg : Bool) (data : List Byte) (s : State) : Result :=
  onMirror s mseq fun s =>
    let m : MediaIn := { port := port.val, vid := none, stamp := stamp, stream := stream, leg := leg, data := data
                         octets := s.frameOctets stream leg data.length }
    let same := fun (x : Standby) => x.matches_ stream leg (s.ssrcOf m) (BitVec.ofNat 16 (beNat data 2 2))
    let own := s.gh.standby.find? same
    let m := match own with
      | some x => { m with vid := x.vid, head := x.head, octets := x.octets }
      | none => m
    let n := (s.gh.standby.filter same).length
    let s := { s with gh := { s.gh with standby := s.gh.standby.filter fun x => !same x } }.count 3180 n
    let s := { s with tw := { s.tw with lastFrame := stamp } }
    (s.billRx (s.stream stream).owner m.octets stamp).handle m

/-! ### COMMIT (R301, R374, R376) -/

/-- A mirrored command carried out, by its opcode (R303, R305), what the primary admitted placed as it was sent (R254); commands not
mirrored, and TWIN_SWITCH, do nothing here. (DESIGN CHOICE, log 131) -/
def mirrorBody (c : Commit) (s : State) : Ans :=
  let e := c.entry
  let block := fun (i : Nat) => HostRead.data (c.blocks.getD i [])
  match c.op.toNat with
  | 0x01 => createAs e s
  | 0x02 => setShareAs e (c.placed.map Prod.fst |>.getD 0) .twin s
  | 0x03 => quiesceBody e s
  | 0x04 => resetBody e s
  | 0x05 => removeBody e s
  | 0x06 => setPasidBody e s
  | 0x08 => logStartBody e s
  | 0x09 => logSwapBody e s
  | 0x0A => logStopBody e s
  | 0x0C => frameDrainAs e .twin c.placed s
  | 0x0D => frameReturnBody e s
  | 0x0E => Ans.ok s
  | 0x10 =>
    let a := if entryArg e 3 = 0#16 then stageBeginBody e s else if entryArg e 3 = 1#16 then stageWriteBody e (.data c.octets) s else stageVerifyBody e s
    if c.same then a else { a with s := a.s.setStaged 3 }
  | 0x11 => if entryArg e 3 = 0#16 then activateBody e s else activateCommitBody e s
  | 0x14 => ledgerSeedBody e (block 0) s
  | 0x1C => if entryArg e 3 = 0#16 then powerFullBody e s else powerParkBody e s
  | 0x40 => programRegisterBody e (block 0) s
  | 0x41 => programRemoveBody e s
  | 0x44 => channelOpenAs e (block 0) (block 1) (block 2) c.result c.placed s
  | 0x45 => channelCloseBody e s
  | 0x46 => fallbackSetBody e s
  | 0x48 => keySetBody e (block 0) s
  | 0x4C => boardAllocAs e c.placed s
  | 0x4D => boardExpectAs e s
  | 0x4E => boardReleaseBody e s
  | 0x50 => beSubmitAs e s
  | 0x51 => sendFrameBody e (.data c.octets) s
  | _ => { s := s, quiet := true }

/-- A command carried out as of the device time at which the primary committed it. (DESIGN CHOICE, log 131) -/
def State.asOf (s : State) (t : Nat) (f : State → Ans) : Ans :=
  let a := f { s with time := t, clk := { s.clk with phi := 0 } }
  let s1 := { a.s with time := s.time, clk := { a.s.clk with phi := s.clk.phi } }
  { a with s := s1 }

/-- The effect came too late (R374, R375). (DEDUCED, log 135) -/
def State.lateFor (s : State) (effect : Option Nat) : State :=
  match effect with
  | some t => if t < s.now then s.syncLost else s
  | none => s

/-- What a COMMIT does here (R371, R374): the command carried out as of its commit; a refusal, and a completion that comes by itself,
change nothing more. (DESIGN CHOICE, log 131) -/
def State.commitAns (s : State) (c : Commit) : Ans :=
  match c.part with
  | .carriedOut => s.asOf c.time (mirrorBody c)
  | .refused => Ans.no s c.status c.detail
  | .completion => { s := s.modInst c.entry.ring.val fun i => { i with busy := none }, quiet := true }

/-- COMMIT (R301, R374, R376, R391, R448): the command is carried out, placed where the primary placed it, journaled with origin TWIN;
HEAD and CPL_TAIL are the primary's, and the completion is kept. Instance 0's rings are each device's own (R377): only its TAG is
kept. (DESIGN CHOICE, log 131; DEDUCED, log 136) -/
def execCommit (c : Commit) (s : State) : Result :=
  onMirror s c.mseq fun s =>
    let n := c.entry.ring.val
    let a := s.commitAns c
    let s := a.s
    let s := if a.quiet then s
      else s.journal { origin := .twin, target := .command c.op.toNat c.entry.tag, old := c.entry.w2, new := BitVec.ofNat 16 c.result
                       status := c.status, detail := c.detail }
    let s :=
      if n = 0 then { s with tw := { s.tw with lastTag := c.entry.tag } }
      else
        let s := (s.setReg (portal n 5) c.head).setReg (portal n 13) c.tail
        let s := match c.cpl with
          | some ws => { s with tw := { s.tw with lastCpl := tblSet none s.tw.lastCpl n (some ((c.tail - 1#16).toNat, ws)) } }
          | none => s
        match a.wait with
        | some w => s.modInst n fun i => { i with busy := some { op := c.op.toNat, tag := c.entry.tag, result := c.result, wait := w } }
        | none => s
    s.lateFor c.effect

/-! ### DECISION (R254, R374) -/

/-- A decision as sent applied: a best-effort job's waybill names this device's own addresses. (DEDUCED, log 136) -/
def State.applyDecision (s : State) (d : Decision) (state depart : Addr) : State :=
  match d with
  | .move c r g => s.modCoach c fun k => { k with moveTo := some (r, g) }
  | .merge a b g => s.mergeCoaches a b g
  | .beIssue id r round =>
    match s.ik.bejobs.find? fun j => decide (j.id = id) with
    | some j => s.issueBe j r round state depart
    | none => s
  | .recal f w => (s.modFrame f fun x => { x with recal := true, recalWant := false }).drainAs f .twin w
  | .rehome b f g => { s with boards := tblSet {} s.boards b { s.board b with plan := some (f, g) } }
  | .rekey n m => s.startRekeyAt .twin m n
  | .rekeyed => s.finishRekey .twin
  | .resolve c _ cls => s.resolve c cls

/-- DECISION (R254, R374). (DEDUCED, log 136) -/
def execDecision (mseq : Nat) (d : Decision) (state depart : Addr) (s : State) : Result :=
  onMirror s mseq fun s =>
    let t := s.effectOf d
    (s.applyDecision d state depart).lateFor t

/-! ### CUT (R375) -/

/-- A CUT applied (R375, R381): later than B + 1,000 ns it marks L on the coaches whose period begins there; later than B + 50 µs it
ends SYNC. (DEDUCED, log 135) -/
def State.applyCut (s : State) (i : Nat) : State :=
  let b := boundaryOf 1 i
  let s := { s with tw := { s.tw with lastCut := i } }
  let s := if b + usUnits 1 < s.now then
      (s.admitted.filter fun x => decide (i % x.2.mul = 0)).foldl (fun s x => s.modCoach x.1 fun k => { k with lateCut := some (i / k.mul) }) s
    else s
  if b + usUnits 50 < s.now then s.syncLost else s

/-- CUT (R375): sent by the primary (none), or received with its MSEQ and the boundary's index. -/
def execCut (recv : Option (Nat × Nat)) (s : State) : Result :=
  match recv with
  | none => .next s.sendCut
  | some (mseq, i) => onMirror s mseq fun s => s.applyCut i

/-- CUT_TIMEOUT (R375): the CUT of a boundary is not applied by B + 50 µs. -/
def execCutTimeout (s : State) : Result :=
  .next (if s.sync && decide (boundaryOf 1 (s.tw.lastCut + 1) + usUnits 50 < s.now) then s.syncLost else s)

/-! ### DIGEST and LEDGER (R382, R385) -/

/-- DIGEST (R382): the twin's digests kept and compared. -/
def execDigest (l : List Digest) (s : State) : Result :=
  onLink s fun s =>
    if s.compares then
      { s with tw := { s.tw with twinDigests := s.tw.twinDigests ++ l.filter fun (d : Digest) => !(s.coach d.coach).holdDigest } }.settleDigests
    else s

/-- DIGEST_TIMEOUT (R382): a digest not received 5 ms after its period's release offset counts as different, with no marks of the
twin's. -/
def execDigestTimeout (s : State) : Result :=
  .next (
    let due := s.tw.digests.filter fun d => decide (d.due ≤ s.now)
    let s := { s with tw := { s.tw with digests := s.tw.digests.filter fun d => !decide (d.due ≤ s.now) } }
    due.foldl (fun s d => s.differUnlessHeld d { coach := d.coach, period := d.period, words := [] }) s)

/-- LEDGER (R385): the twin's closed record compared with this device's own. -/
def execLedger (n : Fin 512) (m : LedgerMsg) (s : State) : Result :=
  onLink s fun s => { s with tw := { s.tw with ledgerTwin := tblSet none s.tw.ledgerTwin n.val (some m) } }.settleLedger n.val

/-! ### Handover (R392) -/

/-- The stewards' time servo follows the device's own ports again (R380). -/
def State.ownTime (s : State) : State := s.setServo 3

/-- YIELD_MESSAGE (R392): the planned handover begins here too; its start is recorded. -/
def execYieldMessage (mseq h : Nat) (s : State) : Result :=
  onMirror s mseq fun s =>
    if s.role = 2 ∧ s.sync = true then { s with tw := { s.tw with handover := some h } }.setRegs 0x0F0008 (toWords s.now 6) else s

/-- The device may take over (R387): a SECONDARY with SYNC = 1 that is eligible. (DEDUCED, log 123) -/
def State.mayTakeOver (s : State) : Bool := decide (s.role = 2) && s.sync && s.mayLead

/-- The old primary's part at H: SECONDARY with SYNC = 1; the manager's TWIN_SWITCH completes. (DEDUCED, log 138) -/
def State.yielded (s : State) : State :=
  let s := { s.setRole 2 true with tw := { s.tw with handover := none, shadow := true, mseqRx := none } }
  match (s.instAt 0).busy with
  | some b => if b.wait = .handover then s.complete 0 { status := .ok, tag := b.tag, op := b.op, detail := 0, result := 0 } else s
  | none => s

/-- The new primary's part at H. (DEDUCED, log 138) -/
def State.tookOver (s : State) : State :=
  ({ s.setRole 1 false with tw := { s.tw with handover := none, shadow := false, resync := .idle } }).ownTime

/-- HANDOVER (R392): at H the two devices exchange roles; a device that is not eligible then never becomes PRIMARY (R369), and
the roles stay. (DEDUCED, log 138) -/
def execHandover (s : State) : Result :=
  .next (
    match s.tw.handover with
    | some h =>
      if s.now < h then s
      else if s.role = 1 then (if s.twinReady then s.yielded.setBit 0x0F0002 1 else s.handoverOff)
      else if s.role = 2 then (if s.mayTakeOver then s.tookOver.setBit 0x0F0002 1 else s.handoverOff)
      else s
    | none => s)

/-! ### Takeover (R387 to R391) -/

/-- A held frame processed by the new primary under its own stamp (R390): LATE where the stamp lies before a boundary already cut. -/
def State.useStandby (s : State) (x : Standby) : State :=
  let y := s.stream x.stream
  let s := s.billRx y.owner x.octets x.stamp
  if x.stamp < boundaryOf 1 s.tw.lastCut then s.discard whyLate y.owner x.stamp
  else s.handle { port := x.port, vid := x.vid, stamp := x.stamp, stream := x.stream, leg := x.leg, data := x.data, octets := x.octets, head := x.head }

/-- The takeover (R387 to R391): TW_TAKEOVER_T, TW_EVT.TAKEOVER, its journal entry, vector 1; the role; the standby frames newer than
the last FRAME applied; the completions written again, notice TAKEOVER. The board goes on in SHADOW until it switches. (DEDUCED, log 138) -/
def State.takeOver (s : State) : State :=
  let (t, s) := s.readTime
  let s := (s.setRegs 0x0F0008 (toWords t 6)).setRole 1 false
  let s := ((s.setBit 0x0F0002 0).journalBit .self 0x0F0002 0).deviceEvent
  let held := s.gh.standby.filter fun x => decide (s.tw.lastFrame < x.stamp)
  let s := { s with gh := { s.gh with standby := [] } }
  let s := { s with tw := { s.tw with shadow := true, handover := none, resync := .idle, digests := [], twinDigests := [] } }
  let s := if s.shared then held.foldl (fun s x => s.useStandby x) s else s
  (s.rewriteCpls.notice 0 5 s.tw.lastTag.toNat).ownTime

/-- FENCED (R387). -/
def execFenced (s : State) : Result := onLink s fun s => if s.mayTakeOver then s.takeOver else s

/-- TAKEOVER (R387): neither an edge nor a message for 50 µs. The link is down with them. -/
def execTakeover (s : State) : Result :=
  .next (
    if s.mayTakeOver && s.hbSilent && s.linkSilent then
      let s := if s.linkUp then s.peerGone else s
      { s with tw := { s.tw with peer := { s.tw.peer with hbSeen := false } } }.takeOver
    else s)

/-- BOARD_SWITCH (R16, R389): the board of the new primary, or of one that serves alone by then, sends. First the kept entries whose RELEASE lies within the last 500 µs, as soon as
their ports allow, each counted TAKEOVER_RESEND. -/
def execBoardSwitch (s : State) : Result :=
  .next (
    if s.leads = true ∧ s.tw.shadow = true then
      let l := s.keptFresh
      let n := s.gh.depNext
      let w := ((List.range l.length).zip l).map fun x =>
        ({ release := x.2.release, port := x.2.port, stream := x.2.stream, order := n + x.1, admitted := true, frame := x.2.frame } : Ready)
      let gh := { s.gh with waiting := s.gh.waiting ++ w, kept := [], depNext := n + l.length }
      let s := { s with gh := gh, tw := { s.tw with shadow := false } }.count 3182 l.length
      (List.range 8).foldl (fun s p => s.runPort p) s
    else s)

/-! ### Lockstep (R452) -/

/-- LOCKSTEP_MISMATCH (R452, R473): a compare point of pair p finds a difference, unless the port has disturbed the pair. -/
def execLockstepMismatch (p : Fin 4) (s : State) : Result :=
  .next (if s.domainOn (24 + p.val) && !tblGet false s.pw.unchecked p.val then s.pairCheckstop p.val else s)

end Sys2Proof.Machine
end

