-- ==== Sys2Proof/Machine/WordArith.lean ====
section
/-! DEFINITION. The word instructions (R153): arithmetic, logic, compares, shifts, multiplies, divides, immediates. -/
namespace Sys2Proof.Machine

/-- The destination of a form. -/
def wsumDst : WSum → Nat
  | .s d _ => d.val
  | .l d _ _ _ => d.val
/-- The two operands of a form: a short form's first is its destination (R130). -/
def wsumArgs (f : WSum) (r : Regs) : Word × Word :=
  match f with
  | .s d t => (r.rw d.val, r.rw t.val)
  | .l _ a b _ => (r.rw a.val, r.rw b.val)
/-- The suffix of a form; a short form takes MW.OVF (R153). -/
def wsumSfx : WSum → Sfx
  | .s _ _ => .mw
  | .l _ _ _ x => x
/-- The words of a form. -/
def wsumWords (f : WSum) (op fn : Nat) : List Word :=
  match f with
  | .s d t => encS op d.val t.val
  | .l d a b x => encL 0x28 fn d.val a.val b.val x 0#3
/-- The destination of a form. -/
def wlogDst : WLog → Nat
  | .s d _ => d.val
  | .l d _ _ => d.val
/-- The two operands of a form. -/
def wlogArgs (f : WLog) (r : Regs) : Word × Word :=
  match f with
  | .s d t => (r.rw d.val, r.rw t.val)
  | .l _ a b => (r.rw a.val, r.rw b.val)
/-- The words of a form. -/
def wlogWords (f : WLog) (op fn : Nat) : List Word :=
  match f with
  | .s d t => encS op d.val t.val
  | .l d a b => encL0 0x28 fn d.val a.val b.val

/-- ADD (R24, R153). -/
def execAdd (e : EngId) (f : WSum) (s : State) : Result :=
  wordOp (wsumWords f 0x04 0x00) 1 (wsumDst f) (fun r =>
    fit 16 (saturates (wsumSfx f) r.mw) ((wsumArgs f r).1.toInt + (wsumArgs f r).2.toInt) r.fl) e s
/-- SUB (R24, R153). -/
def execSub (e : EngId) (f : WSum) (s : State) : Result :=
  wordOp (wsumWords f 0x05 0x01) 1 (wsumDst f) (fun r =>
    fit 16 (saturates (wsumSfx f) r.mw) ((wsumArgs f r).1.toInt - (wsumArgs f r).2.toInt) r.fl) e s
/-- ADDU (R153). -/
def execAddu (e : EngId) (d a b : Fin 32) (s : State) : Result :=
  wordOp (encL0 0x28 0x02 d.val a.val b.val) 1 d.val (fun r => addU 16 (r.rw a.val) (r.rw b.val) r.fl) e s
/-- SUBU (R153). -/
def execSubu (e : EngId) (d a b : Fin 32) (s : State) : Result :=
  wordOp (encL0 0x28 0x03 d.val a.val b.val) 1 d.val (fun r => subU 16 (r.rw a.val) (r.rw b.val) r.fl) e s
/-- ABS (R52). -/
def execAbs (e : EngId) (d a : Fin 32) (x : Sfx) (s : State) : Result :=
  wordOp (encL 0x28 0x04 d.val a.val 0 x 0#3) 1 d.val (fun r =>
    quiet 16 (saturates x r.mw) ((r.rw a.val).toInt.natAbs : Int) r.fl) e s
/-- NEG (R52). -/
def execNeg (e : EngId) (d a : Fin 32) (x : Sfx) (s : State) : Result :=
  wordOp (encL 0x28 0x05 d.val a.val 0 x 0#3) 1 d.val (fun r =>
    quiet 16 (saturates x r.mw) (-(r.rw a.val).toInt) r.fl) e s
/-- MIN (R153). -/
def execMin (e : EngId) (d a b : Fin 32) (s : State) : Result :=
  wordOp (encL0 0x28 0x06 d.val a.val b.val) 1 d.val (fun r =>
    plain (if (r.rw a.val).toInt ≤ (r.rw b.val).toInt then r.rw a.val else r.rw b.val) r.fl) e s
/-- MAX (R153). -/
def execMax (e : EngId) (d a b : Fin 32) (s : State) : Result :=
  wordOp (encL0 0x28 0x07 d.val a.val b.val) 1 d.val (fun r =>
    plain (if (r.rw a.val).toInt ≤ (r.rw b.val).toInt then r.rw b.val else r.rw a.val) r.fl) e s
/-- AND (R153). -/
def execAnd (e : EngId) (f : WLog) (s : State) : Result :=
  wordOp (wlogWords f 0x06 0x08) 1 (wlogDst f) (fun r => plain ((wlogArgs f r).1 &&& (wlogArgs f r).2) r.fl) e s
/-- OR (R153). -/
def execOr (e : EngId) (f : WLog) (s : State) : Result :=
  wordOp (wlogWords f 0x07 0x09) 1 (wlogDst f) (fun r => plain ((wlogArgs f r).1 ||| (wlogArgs f r).2) r.fl) e s
/-- XOR (R153). -/
def execXor (e : EngId) (f : WLog) (s : State) : Result :=
  wordOp (wlogWords f 0x08 0x0A) 1 (wlogDst f) (fun r => plain ((wlogArgs f r).1 ^^^ (wlogArgs f r).2) r.fl) e s
/-- NOT (R153). -/
def execNot (e : EngId) (d a : Fin 32) (s : State) : Result :=
  wordOp (encL0 0x28 0x0B d.val a.val 0) 1 d.val (fun r => plain (~~~(r.rw a.val)) r.fl) e s
/-- CMP (R28). -/
def execCmp (e : EngId) (short : Bool) (a b : Fin 32) (s : State) : Result :=
  flagOp (if short then encS 0x09 a.val b.val else encL0 0x28 0x0C 0 a.val b.val)
    (fun r => cmpS 16 (r.rw a.val) (r.rw b.val) r.fl) e s
/-- CMPU (R28). -/
def execCmpu (e : EngId) (a b : Fin 32) (s : State) : Result :=
  flagOp (encL0 0x28 0x0D 0 a.val b.val) (fun r => cmpU 16 (r.rw a.val) (r.rw b.val) r.fl) e s
/-- SHLQ (R47, R153): its count is a signed 5-bit immediate. -/
def execShlq (e : EngId) (d : Fin 32) (i : BitVec 5) (s : State) : Result :=
  wordOp (encSI 0x0C d.val i) 1 d.val (fun r =>
    fit 16 (saturates Sfx.mw r.mw) (shiftExact (r.rw d.val).toInt i.toInt) r.fl) e s
/-- SHL (R47). -/
def execShl (e : EngId) (d a b : Fin 32) (x : Sfx) (s : State) : Result :=
  wordOp (encL 0x28 0x10 d.val a.val b.val x 0#3) 1 d.val (fun r =>
    fit 16 (saturates x r.mw) (shiftExact (r.rw a.val).toInt (r.rw b.val).toInt) r.fl) e s
/-- SHR (R47). -/
def execShr (e : EngId) (d a b : Fin 32) (x : Sfx) (s : State) : Result :=
  wordOp (encL 0x28 0x11 d.val a.val b.val x 0#3) 1 d.val (fun r =>
    fit 16 (saturates x r.mw) (shiftExact (r.rw a.val).toInt (-(r.rw b.val).toInt)) r.fl) e s
/-- SHRR (R48). -/
def execShrr (e : EngId) (d a b : Fin 32) (x : Sfx) (s : State) : Result :=
  wordOp (encL 0x28 0x12 d.val a.val b.val x 0#3) 1 d.val (fun r =>
    fit 16 (saturates x r.mw) (shiftRound (r.rw a.val).toInt (r.rw b.val).toInt) r.fl) e s
/-- LSL (R49). -/
def execLsl (e : EngId) (d a b : Fin 32) (s : State) : Result :=
  wordOp (encL0 0x28 0x13 d.val a.val b.val) 1 d.val (fun r => lsl 16 (r.rw a.val) (r.rw b.val).toNat r.fl) e s
/-- LSR (R49). -/
def execLsr (e : EngId) (d a b : Fin 32) (s : State) : Result :=
  wordOp (encL0 0x28 0x14 d.val a.val b.val) 1 d.val (fun r => lsr 16 (r.rw a.val) (r.rw b.val).toNat r.fl) e s
/-- NORM (R51). -/
def execNorm (e : EngId) (d a : Fin 32) (s : State) : Result :=
  wordOp (encL0 0x28 0x15 d.val a.val 0) 1 d.val (fun r =>
    plain (BitVec.ofNat 16 (norm 16 (r.rw a.val).toInt)) r.fl) e s
/-- MULH (R37). -/
def execMulh (e : EngId) (d a b : Fin 32) (x : Sfx) (s : State) : Result :=
  wordOp (encL 0x28 0x18 d.val a.val b.val x 0#3) 2 d.val (fun r =>
    fit 16 (saturates x r.mw) (Int.fdiv ((r.rw a.val).toInt * (r.rw b.val).toInt) 32768) r.fl) e s
/-- MULR (R37). -/
def execMulr (e : EngId) (d a b : Fin 32) (x : Sfx) (s : State) : Result :=
  wordOp (encL 0x28 0x19 d.val a.val b.val x 0#3) 2 d.val (fun r =>
    fit 16 (saturates x r.mw) (Int.fdiv ((r.rw a.val).toInt * (r.rw b.val).toInt + 16384) 32768) r.fl) e s
/-- MUL (R37). -/
def execMul (e : EngId) (d : Fin 16) (a b : Fin 32) (s : State) : Result :=
  longOp (encL0 0x28 0x1A (2 * d.val) a.val b.val) 2 d.val (fun r =>
    plain (BitVec.ofInt 32 ((r.rw a.val).toInt * (r.rw b.val).toInt)) r.fl) e s
/-- MULU (R37). -/
def execMulu (e : EngId) (d : Fin 16) (a b : Fin 32) (s : State) : Result :=
  longOp (encL0 0x28 0x1B (2 * d.val) a.val b.val) 2 d.val (fun r =>
    plain (BitVec.ofNat 32 ((r.rw a.val).toNat * (r.rw b.val).toNat)) r.fl) e s
/-- MULF (R37). -/
def execMulf (e : EngId) (d : Fin 16) (a b : Fin 32) (x : Sfx) (s : State) : Result :=
  longOp (encL 0x28 0x1C (2 * d.val) a.val b.val x 0#3) 2 d.val (fun r =>
    mulf (saturates x r.mw) (r.rw a.val) (r.rw b.val) r.fl) e s
/-- Quotient to the low word of a long, remainder to its high word, and the flags (R42). -/
def Regs.setDiv (r : Regs) (d : Nat) (q : Word × Word × Flags) : Regs :=
  ((r.setW (2 * d) q.1).setW (2 * d + 1) q.2.1).setFl q.2.2
/-- DIV (R42, R44). -/
def execDiv (e : EngId) (d : Fin 16) (a b : Fin 32) (s : State) : Result :=
  divOp (encL0 0x28 0x20 (2 * d.val) a.val b.val) 18 [.w (2 * d.val), .w (2 * d.val + 1), .sw]
    (fun r => r.rw b.val == 0#16)
    (fun rd r => r.setDiv d.val (divS (rd.rw a.val).toInt (rd.rw b.val).toInt rd.fl)) e s
/-- DIVU (R43, R44). -/
def execDivu (e : EngId) (d : Fin 16) (a b : Fin 32) (s : State) : Result :=
  divOp (encL0 0x28 0x21 (2 * d.val) a.val b.val) 18 [.w (2 * d.val), .w (2 * d.val + 1), .sw]
    (fun r => r.rw b.val == 0#16)
    (fun rd r => r.setDiv d.val (divU (rd.rw a.val).toNat (rd.rw b.val).toNat rd.fl)) e s
/-- DIVQ (R45): no remainder is written. -/
def execDivq (e : EngId) (d a b : Fin 32) (s : State) : Result :=
  divOp (encL0 0x28 0x22 d.val a.val b.val) 18 [.w d.val, .sw] (fun r => r.rw b.val == 0#16)
    (fun rd r =>
      let q := divQ (rd.rw a.val).toInt (rd.rw b.val).toInt rd.fl
      (r.setW d.val q.1).setFl q.2) e s
/-- ADDQ (R153). -/
def execAddq (e : EngId) (d : Fin 32) (i : BitVec 5) (s : State) : Result :=
  wordOp (encSI 0x0A d.val i) 1 d.val (fun r =>
    fit 16 (saturates Sfx.mw r.mw) ((r.rw d.val).toInt + i.toInt) r.fl) e s
/-- ADDI, ADDI.s, ADDI.w (R153). -/
def execAddi (e : EngId) (d : Fin 32) (i : Word) (x : ISfx) (s : State) : Result :=
  wordOp (encLI 0x2B d.val (1 + sfxCode x) i) 1 d.val (fun r =>
    fit 16 (saturates x r.mw) ((r.rw d.val).toInt + i.toInt) r.fl) e s
/-- SHLI, SHLI.s, SHLI.w (R153). -/
def execShli (e : EngId) (d : Fin 32) (i : Word) (x : ISfx) (s : State) : Result :=
  wordOp (encLI 0x2B d.val (10 + sfxCode x) i) 1 d.val (fun r =>
    fit 16 (saturates x r.mw) (shiftExact (r.rw d.val).toInt i.toInt) r.fl) e s
/-- ADDUI (R153). -/
def execAddui (e : EngId) (d : Fin 32) (i : Word) (s : State) : Result :=
  wordOp (encLI 0x2B d.val 4 i) 1 d.val (fun r => addU 16 (r.rw d.val) i r.fl) e s
/-- ANDI (R153). -/
def execAndi (e : EngId) (d : Fin 32) (i : Word) (s : State) : Result :=
  wordOp (encLI 0x2B d.val 5 i) 1 d.val (fun r => plain (r.rw d.val &&& i) r.fl) e s
/-- ORI (R153). -/
def execOri (e : EngId) (d : Fin 32) (i : Word) (s : State) : Result :=
  wordOp (encLI 0x2B d.val 6 i) 1 d.val (fun r => plain (r.rw d.val ||| i) r.fl) e s
/-- XORI (R153). -/
def execXori (e : EngId) (d : Fin 32) (i : Word) (s : State) : Result :=
  wordOp (encLI 0x2B d.val 7 i) 1 d.val (fun r => plain (r.rw d.val ^^^ i) r.fl) e s
/-- CMPI (R153). -/
def execCmpi (e : EngId) (d : Fin 32) (i : Word) (s : State) : Result :=
  flagOp (encLI 0x2B d.val 8 i) (fun r => cmpS 16 (r.rw d.val) i r.fl) e s
/-- CMPUI (R153). -/
def execCmpui (e : EngId) (d : Fin 32) (i : Word) (s : State) : Result :=
  flagOp (encLI 0x2B d.val 9 i) (fun r => cmpU 16 (r.rw d.val) i r.fl) e s
/-- LSLI (R153). -/
def execLsli (e : EngId) (d : Fin 32) (i : Word) (s : State) : Result :=
  wordOp (encLI 0x2B d.val 13 i) 1 d.val (fun r => lsl 16 (r.rw d.val) i.toNat r.fl) e s
/-- LSRI (R153). -/
def execLsri (e : EngId) (d : Fin 32) (i : Word) (s : State) : Result :=
  wordOp (encLI 0x2B d.val 14 i) 1 d.val (fun r => lsr 16 (r.rw d.val) i.toNat r.fl) e s

end Sys2Proof.Machine
end

