-- ==== Sys2Proof/Machine/Dispatch.lean ====
section
/-! DEFINITION. The meaning of every command: one arm per constructor of Instr, each a direct call of its meaning. -/
namespace Sys2Proof.Machine

/-- The effect of a command on everything but the queue of waiting commands. (DESIGN CHOICE, log 7) -/
def exec (i : Instr) (s : State) : Host.Outcome State Fault Refusal :=
  match i with
  | .mfc e d n => Sys2Proof.Machine.execMfc e d n s
  | .mtc e n d => Sys2Proof.Machine.execMtc e n d s
  | .mov e d s1 => Sys2Proof.Machine.execMov e d s1 s
  | .movq e d i1 => Sys2Proof.Machine.execMovq e d i1 s
  | .movi e d i1 => Sys2Proof.Machine.execMovi e d i1 s
  | .lmov e d s1 => Sys2Proof.Machine.execLmov e d s1 s
  | .lmovi e d i1 => Sys2Proof.Machine.execLmovi e d i1 s
  | .amovi e d i1 => Sys2Proof.Machine.execAmovi e d i1 s
  | .amovhi e d i1 => Sys2Proof.Machine.execAmovhi e d i1 s
  | .amov e d s1 => Sys2Proof.Machine.execAmov e d s1 s
  | .amovl e d s1 => Sys2Proof.Machine.execAmovl e d s1 s
  | .lmova e d s1 => Sys2Proof.Machine.execLmova e d s1 s
  | .mfsw e d => Sys2Proof.Machine.execMfsw e d s
  | .mtsw e s1 => Sys2Proof.Machine.execMtsw e s1 s
  | .mfmw e d => Sys2Proof.Machine.execMfmw e d s
  | .mtmw e s1 => Sys2Proof.Machine.execMtmw e s1 s
  | .add e f => Sys2Proof.Machine.execAdd e f s
  | .sub e f => Sys2Proof.Machine.execSub e f s
  | .addu e d s1 t => Sys2Proof.Machine.execAddu e d s1 t s
  | .subu e d s1 t => Sys2Proof.Machine.execSubu e d s1 t s
  | .abs e d s1 x => Sys2Proof.Machine.execAbs e d s1 x s
  | .neg e d s1 x => Sys2Proof.Machine.execNeg e d s1 x s
  | .min e d s1 t => Sys2Proof.Machine.execMin e d s1 t s
  | .max e d s1 t => Sys2Proof.Machine.execMax e d s1 t s
  | .and e f => Sys2Proof.Machine.execAnd e f s
  | .or e f => Sys2Proof.Machine.execOr e f s
  | .xor e f => Sys2Proof.Machine.execXor e f s
  | .not e d s1 => Sys2Proof.Machine.execNot e d s1 s
  | .cmp e short a b => Sys2Proof.Machine.execCmp e short a b s
  | .cmpu e a b => Sys2Proof.Machine.execCmpu e a b s
  | .shlq e d i1 => Sys2Proof.Machine.execShlq e d i1 s
  | .shl e d s1 t x => Sys2Proof.Machine.execShl e d s1 t x s
  | .shr e d s1 t x => Sys2Proof.Machine.execShr e d s1 t x s
  | .shrr e d s1 t x => Sys2Proof.Machine.execShrr e d s1 t x s
  | .lsl e d s1 t => Sys2Proof.Machine.execLsl e d s1 t s
  | .lsr e d s1 t => Sys2Proof.Machine.execLsr e d s1 t s
  | .norm e d s1 => Sys2Proof.Machine.execNorm e d s1 s
  | .mulh e d s1 t x => Sys2Proof.Machine.execMulh e d s1 t x s
  | .mulr e d s1 t x => Sys2Proof.Machine.execMulr e d s1 t x s
  | .mul e d s1 t => Sys2Proof.Machine.execMul e d s1 t s
  | .mulu e d s1 t => Sys2Proof.Machine.execMulu e d s1 t s
  | .mulf e d s1 t x => Sys2Proof.Machine.execMulf e d s1 t x s
  | .div e d s1 t => Sys2Proof.Machine.execDiv e d s1 t s
  | .divu e d s1 t => Sys2Proof.Machine.execDivu e d s1 t s
  | .divq e d s1 t => Sys2Proof.Machine.execDivq e d s1 t s
  | .addq e d i1 => Sys2Proof.Machine.execAddq e d i1 s
  | .addi e d i1 x => Sys2Proof.Machine.execAddi e d i1 x s
  | .addui e d i1 => Sys2Proof.Machine.execAddui e d i1 s
  | .andi e d i1 => Sys2Proof.Machine.execAndi e d i1 s
  | .ori e d i1 => Sys2Proof.Machine.execOri e d i1 s
  | .xori e d i1 => Sys2Proof.Machine.execXori e d i1 s
  | .cmpi e d i1 => Sys2Proof.Machine.execCmpi e d i1 s
  | .cmpui e d i1 => Sys2Proof.Machine.execCmpui e d i1 s
  | .shli e d i1 x => Sys2Proof.Machine.execShli e d i1 x s
  | .lsli e d i1 => Sys2Proof.Machine.execLsli e d i1 s
  | .lsri e d i1 => Sys2Proof.Machine.execLsri e d i1 s
  | .ladd e d s1 t x => Sys2Proof.Machine.execLadd e d s1 t x s
  | .lsub e d s1 t x => Sys2Proof.Machine.execLsub e d s1 t x s
  | .laddu e d s1 t => Sys2Proof.Machine.execLaddu e d s1 t s
  | .lsubu e d s1 t => Sys2Proof.Machine.execLsubu e d s1 t s
  | .labs e d s1 x => Sys2Proof.Machine.execLabs e d s1 x s
  | .lneg e d s1 x => Sys2Proof.Machine.execLneg e d s1 x s
  | .laddc e d s1 t => Sys2Proof.Machine.execLaddc e d s1 t s
  | .lsubc e d s1 t => Sys2Proof.Machine.execLsubc e d s1 t s
  | .lsat e d s1 => Sys2Proof.Machine.execLsat e d s1 s
  | .lcmp e a b => Sys2Proof.Machine.execLcmp e a b s
  | .land e d s1 t => Sys2Proof.Machine.execLand e d s1 t s
  | .lor e d s1 t => Sys2Proof.Machine.execLor e d s1 t s
  | .lxor e d s1 t => Sys2Proof.Machine.execLxor e d s1 t s
  | .lshl e d s1 t x => Sys2Proof.Machine.execLshl e d s1 t x s
  | .lshr e d s1 t x => Sys2Proof.Machine.execLshr e d s1 t x s
  | .lshrr e d s1 t x => Sys2Proof.Machine.execLshrr e d s1 t x s
  | .llsl e d s1 t => Sys2Proof.Machine.execLlsl e d s1 t s
  | .llsr e d s1 t => Sys2Proof.Machine.execLlsr e d s1 t s
  | .lnorm e d s1 => Sys2Proof.Machine.execLnorm e d s1 s
  | .lmac e d s1 t x => Sys2Proof.Machine.execLmac e d s1 t x s
  | .lmsu e d s1 t x => Sys2Proof.Machine.execLmsu e d s1 t x s
  | .lmacc e d s1 t => Sys2Proof.Machine.execLmacc e d s1 t s
  | .lmsuc e d s1 t => Sys2Proof.Machine.execLmsuc e d s1 t s
  | .macr e d s1 t => Sys2Proof.Machine.execMacr e d s1 t s
  | .msur e d s1 t => Sys2Proof.Machine.execMsur e d s1 t s
  | .rndh e d s1 => Sys2Proof.Machine.execRndh e d s1 s
  | .exth e d s1 => Sys2Proof.Machine.execExth e d s1 s
  | .extl e d s1 => Sys2Proof.Machine.execExtl e d s1 s
  | .deph e d s1 => Sys2Proof.Machine.execDeph e d s1 s
  | .depl e d s1 => Sys2Proof.Machine.execDepl e d s1 s
  | .ldiv e d s1 t => Sys2Proof.Machine.execLdiv e d s1 t s
  | .ldivu e d s1 t => Sys2Proof.Machine.execLdivu e d s1 t s
  | .aaddw e d s1 t => Sys2Proof.Machine.execAaddw e d s1 t s
  | .aaddl e d s1 t => Sys2Proof.Machine.execAaddl e d s1 t s
  | .adiff e d s1 t => Sys2Proof.Machine.execAdiff e d s1 t s
  | .acmp e a b => Sys2Proof.Machine.execAcmp e a b s
  | .laddi e d i1 x => Sys2Proof.Machine.execLaddi e d i1 x s
  | .lcmpi e d i1 => Sys2Proof.Machine.execLcmpi e d i1 s
  | .aaddi e d i1 => Sys2Proof.Machine.execAaddi e d i1 s
  | .kmac e k s1 t => Sys2Proof.Machine.execKmac e k s1 t s
  | .kmaci e k s1 t => Sys2Proof.Machine.execKmaci e k s1 t s
  | .kmsu e k s1 t => Sys2Proof.Machine.execKmsu e k s1 t s
  | .kmsui e k s1 t => Sys2Proof.Machine.execKmsui e k s1 t s
  | .kadd e k s1 => Sys2Proof.Machine.execKadd e k s1 s
  | .kclr e k => Sys2Proof.Machine.execKclr e k s
  | .kmov e d s1 => Sys2Proof.Machine.execKmov e d s1 s
  | .kldw e k s1 => Sys2Proof.Machine.execKldw e k s1 s
  | .kldl e k s1 => Sys2Proof.Machine.execKldl e k s1 s
  | .mfe e d s1 => Sys2Proof.Machine.execMfe e d s1 s
  | .mte e d s1 => Sys2Proof.Machine.execMte e d s1 s
  | .lrnd e f => Sys2Proof.Machine.execLrnd e f s
  | .rndw e f => Sys2Proof.Machine.execRndw e f s
  | .rndl e f => Sys2Proof.Machine.execRndl e f s
  | .qadv e d q => Sys2Proof.Machine.execQadv e d q s
  | .qadvn e q l => Sys2Proof.Machine.execQadvn e q l s
  | .qrate e q a b => Sys2Proof.Machine.execQrate e q a b s
  | .qidx e d q => Sys2Proof.Machine.execQidx e d q s
  | .qfrc e d q => Sys2Proof.Machine.execQfrc e d q s
  | .kdot e k a b => Sys2Proof.Machine.execKdot e k a b s
  | .vusum e k u => Sys2Proof.Machine.execVusum e k u s
  | .vadd e f => Sys2Proof.Machine.execVadd e f s
  | .vsub e f => Sys2Proof.Machine.execVsub e f s
  | .vmulr e f => Sys2Proof.Machine.execVmulr e f s
  | .vmulh e d a b m x => Sys2Proof.Machine.execVmulh e d a b m x s
  | .vneg e d a m x => Sys2Proof.Machine.execVneg e d a m x s
  | .vabs e d a m x => Sys2Proof.Machine.execVabs e d a m x s
  | .vmin e d a b m => Sys2Proof.Machine.execVmin e d a b m s
  | .vmax e d a b m => Sys2Proof.Machine.execVmax e d a b m s
  | .vand e d a b m => Sys2Proof.Machine.execVand e d a b m s
  | .vor e d a b m => Sys2Proof.Machine.execVor e d a b m s
  | .vxor e d a b m => Sys2Proof.Machine.execVxor e d a b m s
  | .vmov e f => Sys2Proof.Machine.execVmov e f s
  | .vsplat e d w m => Sys2Proof.Machine.execVsplat e d w m s
  | .vsel e d a b sel m => Sys2Proof.Machine.execVsel e d a b sel m s
  | .vshl e d a w m x => Sys2Proof.Machine.execVshl e d a w m x s
  | .vshr e d a w m x => Sys2Proof.Machine.execVshr e d a w m x s
  | .vshli e d a i1 m x => Sys2Proof.Machine.execVshli e d a i1 m x s
  | .vshri e d a i1 m x => Sys2Proof.Machine.execVshri e d a i1 m x s
  | .vslide e d a b n m => Sys2Proof.Machine.execVslide e d a b n m s
  | .vmac e f => Sys2Proof.Machine.execVmac e f s
  | .vmaci e f => Sys2Proof.Machine.execVmaci e f s
  | .vmsu e u a b m => Sys2Proof.Machine.execVmsu e u a b m s
  | .vmsui e u a b m => Sys2Proof.Machine.execVmsui e u a b m s
  | .vuadd e u a m => Sys2Proof.Machine.execVuadd e u a m s
  | .vusub e u a m => Sys2Proof.Machine.execVusub e u a m s
  | .vclr e f => Sys2Proof.Machine.execVclr e f s
  | .vrnd e f => Sys2Proof.Machine.execVrnd e f s
  | .vcmpeq e p a b m => Sys2Proof.Machine.execVcmpeq e p a b m s
  | .vcmplt e p a b m => Sys2Proof.Machine.execVcmplt e p a b m s
  | .vcmple e p a b m => Sys2Proof.Machine.execVcmple e p a b m s
  | .pand e d a b => Sys2Proof.Machine.execPand e d a b s
  | .por e d a b => Sys2Proof.Machine.execPor e d a b s
  | .pxor e d a b => Sys2Proof.Machine.execPxor e d a b s
  | .pnot e d a => Sys2Proof.Machine.execPnot e d a s
  | .pmovw e d w => Sys2Proof.Machine.execPmovw e d w s
  | .vmff e d f => Sys2Proof.Machine.execVmff e d f s
  | .vmtf e f w => Sys2Proof.Machine.execVmtf e f w s
  | .bcond e c annul d => Sys2Proof.Machine.execBcond e c annul d s
  | .call e annul d => Sys2Proof.Machine.execCall e annul d s
  | .jr e a => Sys2Proof.Machine.execJr e a s
  | .callr e a => Sys2Proof.Machine.execCallr e a s
  | .ret e => Sys2Proof.Machine.execRet e s
  | .ld e t m => Sys2Proof.Machine.execLd e t m s
  | .st e t m => Sys2Proof.Machine.execSt e t m s
  | .ldl e t m => Sys2Proof.Machine.execLdl e t m s
  | .stl e t m => Sys2Proof.Machine.execStl e t m s
  | .lda e t a inc => Sys2Proof.Machine.execLda e t a inc s
  | .sta e t a inc => Sys2Proof.Machine.execSta e t a inc s
  | .vld e t a inc => Sys2Proof.Machine.execVld e t a inc s
  | .vst e t a inc => Sys2Proof.Machine.execVst e t a inc s
  | .uld e t a inc => Sys2Proof.Machine.execUld e t a inc s
  | .ust e t a inc => Sys2Proof.Machine.execUst e t a inc s
  | .kld e t a inc => Sys2Proof.Machine.execKld e t a inc s
  | .kst e t a inc => Sys2Proof.Machine.execKst e t a inc s
  | .qset e t a inc => Sys2Proof.Machine.execQset e t a inc s
  | .qst e t a inc => Sys2Proof.Machine.execQst e t a inc s
  | .ldx e t b => Sys2Proof.Machine.execLdx e t b s
  | .stx e t b => Sys2Proof.Machine.execStx e t b s
  | .xadd e t a => Sys2Proof.Machine.execXadd e t a s
  | .swap e t a => Sys2Proof.Machine.execSwap e t a s
  | .cas e t a => Sys2Proof.Machine.execCas e t a s
  | .lea e d b => Sys2Proof.Machine.execLea e d b s
  | .rpt e c o => Sys2Proof.Machine.execRpt e c o s
  | .movs e upto => Sys2Proof.Machine.execMovs e upto s
  | .fills e upto => Sys2Proof.Machine.execFills e upto s
  | .cmps e upto => Sys2Proof.Machine.execCmps e upto s
  | .scans e upto => Sys2Proof.Machine.execScans e upto s
  | .nop e => Sys2Proof.Machine.execNop e s
  | .wait e => Sys2Proof.Machine.execWait e s
  | .isync e => Sys2Proof.Machine.execIsync e s
  | .fence e => Sys2Proof.Machine.execFence e s
  | .brk e => Sys2Proof.Machine.execBrk e s
  | .trap e n => Sys2Proof.Machine.execTrap e n s
  | .iflush e a => Sys2Proof.Machine.execIflush e a s
  | .dflush e a => Sys2Proof.Machine.execDflush e a s
  | .dinv e a => Sys2Proof.Machine.execDinv e a s
  | .dclean e a => Sys2Proof.Machine.execDclean e a s
  | .pscrub e => Sys2Proof.Machine.execPscrub e s
  | .reth e => Sys2Proof.Machine.execReth e s
  | .reths e => Sys2Proof.Machine.execReths e s
  | .retm e => Sys2Proof.Machine.execRetm e s
  | .tlbput e a => Sys2Proof.Machine.execTlbput e a s
  | .tlbget e a => Sys2Proof.Machine.execTlbget e a s
  | .tlbfind e a => Sys2Proof.Machine.execTlbfind e a s
  | .tlbdropall e => Sys2Proof.Machine.execTlbdropall e s
  | .tlbdropasid e s1 => Sys2Proof.Machine.execTlbdropasid e s1 s
  | .jobstart e a => Sys2Proof.Machine.execJobstart e a s
  | .jobend e => Sys2Proof.Machine.execJobend e s
  | .msend e d a => Sys2Proof.Machine.execMsend e d a s
  | .cbpost e v c => Sys2Proof.Machine.execCbpost e v c s
  | .cbld e u c j => Sys2Proof.Machine.execCbld e u c j s
  | .reservedEncoding e w0 w1 w2 => Sys2Proof.Machine.execReservedEncoding e w0 w1 w2 s
  | .interrupt e abandon => Sys2Proof.Machine.execInterrupt e abandon s
  | .storeDrain e => Sys2Proof.Machine.execStoreDrain e s
  | .queueDelivery e source sender data => Sys2Proof.Machine.execQueueDelivery e source sender data s
  | .postArrive n => Sys2Proof.Machine.execPostArrive n s
  | .descriptorComplete f c => Sys2Proof.Machine.execDescriptorComplete f c s
  | .chainError f c => Sys2Proof.Machine.execChainError f c s
  | .scrub at_ found free pass => Sys2Proof.Machine.execScrub at_ found free pass s
  | .hostLoadTimeout e => Sys2Proof.Machine.execHostLoadTimeout e s
  | .hostLoadComplete e data => Sys2Proof.Machine.execHostLoadComplete e data s
  | .atsInvalidation itag pasid page pages => Sys2Proof.Machine.execAtsInvalidation itag pasid page pages s
  | .frameReceive port octets ovr => Sys2Proof.Machine.execFrameReceive port octets ovr s
  | .fragTimeout => Sys2Proof.Machine.execFragTimeout s
  | .portLinkChange port phy => Sys2Proof.Machine.execPortLinkChange port phy s
  | .rekeyStart => Sys2Proof.Machine.execRekeyStart s
  | .rekeyDone => Sys2Proof.Machine.execRekeyDone s
  | .tableRebuild item lost => Sys2Proof.Machine.execTableRebuild item lost s
  | .departureSubmit coach inst list => Sys2Proof.Machine.execDepartureSubmit coach inst list s
  | .departureRelease => Sys2Proof.Machine.execDepartureRelease s
  | .standbyExpired => Sys2Proof.Machine.execStandbyExpired s
  | .round merge => Sys2Proof.Machine.execRound merge s
  | .periodBoundary => Sys2Proof.Machine.execPeriodBoundary s
  | .cut recv => Sys2Proof.Machine.execCut recv s
  | .waybillIssue c state depart chain => Sys2Proof.Machine.execWaybillIssue c state depart chain s
  | .beIssue r state depart => Sys2Proof.Machine.execBeIssue r state depart s
  | .innkeeperPadding c => Sys2Proof.Machine.execInnkeeperPadding c s
  | .minuteClose => Sys2Proof.Machine.execMinuteClose s
  | .ledgerRecordWrite => Sys2Proof.Machine.execLedgerRecordWrite s
  | .snapshotComplete => Sys2Proof.Machine.execSnapshotComplete s
  | .tdSample r => Sys2Proof.Machine.execTdSample r s
  | .tcxoLost edges => Sys2Proof.Machine.execTcxoLost edges s
  | .tcxoResume => Sys2Proof.Machine.execTcxoResume s
  | .ppsCapture lowNs => Sys2Proof.Machine.execPpsCapture lowNs s
  | .ppsOutRise => Sys2Proof.Machine.execPpsOutRise s
  | .ppsOutFall => Sys2Proof.Machine.execPpsOutFall s
  | .alarmMatch n => Sys2Proof.Machine.execAlarmMatch n s
  | .timerMatch f t => Sys2Proof.Machine.execTimerMatch f t s
  | .globalStart => Sys2Proof.Machine.execGlobalStart s
  | .analogueTrip n v => Sys2Proof.Machine.execAnalogueTrip n v s
  | .governorInterval paces temps avsOk => Sys2Proof.Machine.execGovernorInterval paces temps avsOk s
  | .framePowerUp f ok => Sys2Proof.Machine.execFramePowerUp f ok s
  | .recalStart => Sys2Proof.Machine.execRecalStart s
  | .drainComplete f => Sys2Proof.Machine.execDrainComplete f s
  | .thermalTrip sensor => Sys2Proof.Machine.execThermalTrip sensor s
  | .aonBrownout => Sys2Proof.Machine.execAonBrownout s
  | .aonPowerUp => Sys2Proof.Machine.execAonPowerUp s
  | .retentionCheck t => Sys2Proof.Machine.execRetentionCheck t s
  | .wakeStageReady n => Sys2Proof.Machine.execWakeStageReady n s
  | .wakeStageTimeout n => Sys2Proof.Machine.execWakeStageTimeout n s
  | .wakeRetry => Sys2Proof.Machine.execWakeRetry s
  | .fenceTimeout => Sys2Proof.Machine.execFenceTimeout s
  | .sysResetN strap => Sys2Proof.Machine.execSysResetN strap s
  | .startupStage x => Sys2Proof.Machine.execStartupStage x s
  | .trialWatchdog => Sys2Proof.Machine.execTrialWatchdog s
  | .perstN => Sys2Proof.Machine.execPerstN s
  | .functionLevelReset => Sys2Proof.Machine.execFunctionLevelReset s
  | .configRequest dword write => Sys2Proof.Machine.execConfigRequest dword write s
  | .d3hotEntry => Sys2Proof.Machine.execD3hotEntry s
  | .d0Entry => Sys2Proof.Machine.execD0Entry s
  | .msixUnmask v w => Sys2Proof.Machine.execMsixUnmask v w s
  | .norWrite ok => Sys2Proof.Machine.execNorWrite ok s
  | .activation kind index => Sys2Proof.Machine.execActivation kind index s
  | .lockstepMismatch p => Sys2Proof.Machine.execLockstepMismatch p s
  | .hello x => Sys2Proof.Machine.execHello x s
  | .helloSend => Sys2Proof.Machine.execHelloSend s
  | .pairRetry => Sys2Proof.Machine.execPairRetry s
  | .beat t role sync eligible frames mseq => Sys2Proof.Machine.execBeat t role sync eligible frames mseq s
  | .beatSend => Sys2Proof.Machine.execBeatSend s
  | .time tx rx => Sys2Proof.Machine.execTime tx rx s
  | .timeSend => Sys2Proof.Machine.execTimeSend s
  | .frame mseq stamp port stream leg data => Sys2Proof.Machine.execFrame mseq stamp port stream leg data s
  | .commit c => Sys2Proof.Machine.execCommit c s
  | .decision mseq d state depart => Sys2Proof.Machine.execDecision mseq d state depart s
  | .digest l => Sys2Proof.Machine.execDigest l s
  | .digestTimeout => Sys2Proof.Machine.execDigestTimeout s
  | .cutTimeout => Sys2Proof.Machine.execCutTimeout s
  | .ledger n m => Sys2Proof.Machine.execLedger n m s
  | .yieldMessage mseq h => Sys2Proof.Machine.execYieldMessage mseq h s
  | .handover => Sys2Proof.Machine.execHandover s
  | .fenced => Sys2Proof.Machine.execFenced s
  | .takeover => Sys2Proof.Machine.execTakeover s
  | .boardSwitch => Sys2Proof.Machine.execBoardSwitch s
  | .hbFault => Sys2Proof.Machine.execHbFault s
  | .linkDown => Sys2Proof.Machine.execLinkDown s
  | .laneDown => Sys2Proof.Machine.execLaneDown s
  | .linkUp four peerRole peerTakeover => Sys2Proof.Machine.execLinkUp four peerRole peerTakeover s
  | .resyncStart => Sys2Proof.Machine.execResyncStart s
  | .state x => Sys2Proof.Machine.execState x s
  | .coachState c h words => Sys2Proof.Machine.execCoachState c h words s
  | .stateDone mseq => Sys2Proof.Machine.execStateDone mseq s
  | .instanceCreate e => Sys2Proof.Machine.execInstanceCreate e s
  | .instanceSetShare e => Sys2Proof.Machine.execInstanceSetShare e s
  | .instanceQuiesce e => Sys2Proof.Machine.execInstanceQuiesce e s
  | .quiesceComplete n => Sys2Proof.Machine.execQuiesceComplete n s
  | .instanceReset e => Sys2Proof.Machine.execInstanceReset e s
  | .instanceRemove e => Sys2Proof.Machine.execInstanceRemove e s
  | .instanceSetPasid e => Sys2Proof.Machine.execInstanceSetPasid e s
  | .instanceError n cause => Sys2Proof.Machine.execInstanceError n cause s
  | .dirtyLogStart e => Sys2Proof.Machine.execDirtyLogStart e s
  | .dirtyLogSwap e => Sys2Proof.Machine.execDirtyLogSwap e s
  | .dirtyLogStop e => Sys2Proof.Machine.execDirtyLogStop e s
  | .frameDrain e => Sys2Proof.Machine.execFrameDrain e s
  | .frameReturn e => Sys2Proof.Machine.execFrameReturn e s
  | .classRekey e => Sys2Proof.Machine.execClassRekey e s
  | .pieceStageBegin e => Sys2Proof.Machine.execPieceStageBegin e s
  | .pieceStageWrite e source same => Sys2Proof.Machine.execPieceStageWrite e source same s
  | .pieceStageVerify e same => Sys2Proof.Machine.execPieceStageVerify e same s
  | .pieceActivate e => Sys2Proof.Machine.execPieceActivate e s
  | .pieceActivateCommit e => Sys2Proof.Machine.execPieceActivateCommit e s
  | .pieceActivateConfirm e => Sys2Proof.Machine.execPieceActivateConfirm e s
  | .journalRead e => Sys2Proof.Machine.execJournalRead e s
  | .ledgerRingSet e => Sys2Proof.Machine.execLedgerRingSet e s
  | .ledgerRingDisable e => Sys2Proof.Machine.execLedgerRingDisable e s
  | .ledgerRingSeed e block => Sys2Proof.Machine.execLedgerRingSeed e block s
  | .snapshot e => Sys2Proof.Machine.execSnapshot e s
  | .twinSwitch e => Sys2Proof.Machine.execTwinSwitch e s
  | .twinResync e => Sys2Proof.Machine.execTwinResync e s
  | .powerStateFull e => Sys2Proof.Machine.execPowerStateFull e s
  | .powerStatePark e => Sys2Proof.Machine.execPowerStatePark e s
  | .powerStateNight e => Sys2Proof.Machine.execPowerStateNight e s
  | .programRegister e image => Sys2Proof.Machine.execProgramRegister e image s
  | .programRemove e => Sys2Proof.Machine.execProgramRemove e s
  | .channelOpen e block template init => Sys2Proof.Machine.execChannelOpen e block template init s
  | .channelClose e => Sys2Proof.Machine.execChannelClose e s
  | .fallbackSet e => Sys2Proof.Machine.execFallbackSet e s
  | .keySet e block => Sys2Proof.Machine.execKeySet e block s
  | .streamSync e => Sys2Proof.Machine.execStreamSync e s
  | .boardAlloc e => Sys2Proof.Machine.execBoardAlloc e s
  | .boardExpect e => Sys2Proof.Machine.execBoardExpect e s
  | .boardRelease e => Sys2Proof.Machine.execBoardRelease e s
  | .beSubmit e => Sys2Proof.Machine.execBeSubmit e s
  | .sendFrame e frame => Sys2Proof.Machine.execSendFrame e frame s
  | .reservedCommand e op => Sys2Proof.Machine.execReservedCommand e op s
  | .cmdDoorbell n w => Sys2Proof.Machine.execCmdDoorbell n w s
  | .cplDoorbell n w => Sys2Proof.Machine.execCplDoorbell n w s
  | .puntDoorbell n w => Sys2Proof.Machine.execPuntDoorbell n w s
  | .ringEnable n ring w => Sys2Proof.Machine.execRingEnable n ring w s
  | .ringDisable n ring w => Sys2Proof.Machine.execRingDisable n ring w s
  | .arm n w => Sys2Proof.Machine.execArm n w s
  | .ledgerRingDoorbell ag w => Sys2Proof.Machine.execLedgerRingDoorbell ag w s
  | .snapGo ag w => Sys2Proof.Machine.execSnapGo ag w s
  | .courierGo ag f c w => Sys2Proof.Machine.execCourierGo ag f c w s
  | .courierAbort ag f c w => Sys2Proof.Machine.execCourierAbort ag f c w s
  | .npSetCommit ag w => Sys2Proof.Machine.execNpSetCommit ag w s
  | .npIncCommit ag w => Sys2Proof.Machine.execNpIncCommit ag w s
  | .gstartCommit ag w => Sys2Proof.Machine.execGstartCommit ag w s
  | .alarmCommit ag n value w => Sys2Proof.Machine.execAlarmCommit ag n value w s
  | .timerCompareCommit ag f t value w => Sys2Proof.Machine.execTimerCompareCommit ag f t value w s
  | .timerCountCommit ag f t w => Sys2Proof.Machine.execTimerCountCommit ag f t w s
  | .capnow ag f t w => Sys2Proof.Machine.execCapnow ag f t w s
  | .captureRead ag timer => Sys2Proof.Machine.execCaptureRead ag timer s
  | .counterSet ag i1 w => Sys2Proof.Machine.execCounterSet ag i1 w s
  | .selftest ag silent digest => Sys2Proof.Machine.execSelftest ag silent digest s
  | .kick p w => Sys2Proof.Machine.execKick p w s
  | .groupReadLatch ag req => Sys2Proof.Machine.execGroupReadLatch ag req s
  | .groupWrite ag off w => Sys2Proof.Machine.execGroupWrite ag off w s
  | .registerWrite ag byte octets => Sys2Proof.Machine.execRegisterWrite ag byte octets s
  | .select w => Sys2Proof.Machine.execSelect w s
  | .halt => Sys2Proof.Machine.execHalt s
  | .resume => Sys2Proof.Machine.execResume s
  | .step count => Sys2Proof.Machine.execStep count s
  | .readReg r => Sys2Proof.Machine.execReadReg r s
  | .writeReg r data => Sys2Proof.Machine.execWriteReg r data s
  | .readMem a count host => Sys2Proof.Machine.execReadMem a count host s
  | .writeMem a data => Sys2Proof.Machine.execWriteMem a data s
  | .setBp w a => Sys2Proof.Machine.execSetBp w a s
  | .setWp w a mask => Sys2Proof.Machine.execSetWp w a mask s
  | .status => Sys2Proof.Machine.execStatus s
  | .requestAbandon => Sys2Proof.Machine.execRequestAbandon s
  | .bypass => Sys2Proof.Machine.execBypass s
  | .idcode => Sys2Proof.Machine.execIdcode s
  | .samplePreload levels shiftIn => Sys2Proof.Machine.execSamplePreload levels shiftIn s
  | .extest levels shiftIn => Sys2Proof.Machine.execExtest levels shiftIn s
  | .clamp => Sys2Proof.Machine.execClamp s
  | .highz => Sys2Proof.Machine.execHighz s
  | .trstN => Sys2Proof.Machine.execTrstN s
  | .readWord code => Sys2Proof.Machine.execReadWord code s
  | .smbusWrite => Sys2Proof.Machine.execSmbusWrite s
  | .tcxoEdge pps => Sys2Proof.Machine.execTcxoEdge pps s
  | .sysResetNFall => Sys2Proof.Machine.execSysResetNFall s
  | .perstNRelease => Sys2Proof.Machine.execPerstNRelease s
  | .analogueConditionLeft n v => Sys2Proof.Machine.execAnalogueConditionLeft n v s
  | .heartbeatEdge => Sys2Proof.Machine.execHeartbeatEdge s
  | .laneReturn => Sys2Proof.Machine.execLaneReturn s
  | .frameTransmitted port => Sys2Proof.Machine.execFrameTransmitted port s
  | .eraseComplete => Sys2Proof.Machine.execEraseComplete s

end Sys2Proof.Machine
end

