-- ==== Sys2Proof/Safety.lean ====
section
/-! DEFINITION. The terms the statements are made in: when an engine's next instruction meets nothing but its own
operands, what an instruction leaves unchanged, and the invariants of the device. -/
namespace Sys2Proof.Machine

/-- Engine e can issue an instruction of n words at its point, and nothing but its operands and its place can divert it: the
engine runs on a powered domain, no pair is open there (R86), no debug point, halt or step is armed (R469 to R472), no PMC
interrupt is due before it or a slot after it (R362), the budget has room for it (R110), and its words can be fetched (R188, R457). -/
def unhindered (s : State) (e : EngId) (n : Nat) : Bool :=
  let x := s.engAt e
  canIssue s e && (match x.pair with | some p => p.next != x.pc | none => true)
    && (x.bps.all fun b => !b.2.armed) && (x.wps.all fun b => !b.2.armed) && !x.haltAsked && x.stepLeft == 0
    && (match x.pmcDue with | some k => decide (2 ≤ k) | none => true)
    && (!x.metered || decide (x.meter.charge.toNat + 65536 ≤ x.meter.budget.toNat))
    && (match translate s e (accessVas x.pc n) .fetch with | .ok ps => ps.all (fun p => !fetchBad s e p) | .error _ => false)

/-- Nothing but its own operands can divert the next instruction of engine e, of n words: it is unhindered, and stands
outside a delay slot and not at the end of an active block repeat. -/
def clear (s : State) (e : EngId) (n : Nat) : Bool :=
  let x := s.engAt e
  unhindered s e n && !x.slot && x.npc.isNone && !(x.repeating && x.pc == x.regs.bre)

/-- What an instruction that only computes on the registers leaves of its engine: all but the job registers, the pc, and the
bookkeeping every retirement does (the annul mark, fetched lines, performance counters and their interrupt line with its bound, the meter's
charge, the pair record, the resumed breakpoint, the slot classifier's marks). -/
def Engine.rest (x : Engine) : Engine :=
  { x with
    regs := {}, pc := 0#48, annul := false, icache := [], perf := [], pair := none, skipDbg := false, skipWp := false, pmcDue := none, issuedIn := 0#2
    meter := { x.meter with charge := 0#32, prev := none }
    ctrl := { x.ctrl with ipend := x.ctrl.ipend &&& 0xFFF7#16 } }

/-- Everything outside engine e is the same: every other engine, memory, registers, queues and units. -/
def sameBut (e : EngId) (s t : State) : Prop :=
  { t with eng := [] } = { s with eng := [] } ∧ ∀ g, g ≠ e → t.engAt g = s.engAt g

/-- The instruction runs to a next state in which the job registers of its engine are `r`, the pc stands `n` words on, and
nothing else has changed but the retirement's bookkeeping. -/
def regsNext (i : Instr) (s : State) (e : EngId) (n : Nat) (r : Regs) : Prop :=
  ∃ t, exec i s = .next t ∧ (t.engAt e).regs = r ∧ (t.engAt e).pc = (s.engAt e).pc + BitVec.ofNat 48 n ∧
    (t.engAt e).npc = none ∧ (t.engAt e).rest = (s.engAt e).rest ∧ sameBut e s t

/-- The job registers of an engine. -/
abbrev State.regsOf (s : State) (e : EngId) : Regs := (s.engAt e).regs

/-- The instruction writes a word register and SW, and nothing else. -/
def wordNext (i : Instr) (s : State) (e : EngId) (n d : Nat) (y : Word × Flags) : Prop :=
  regsNext i s e n (((s.regsOf e).setW d y.1).setFl y.2)

/-- The instruction writes a long register and SW, and nothing else. -/
def longNext (i : Instr) (s : State) (e : EngId) (n d : Nat) (y : Long × Flags) : Prop :=
  regsNext i s e n (((s.regsOf e).setL d y.1).setFl y.2)

/-- The instruction writes a rod and SW, and nothing else. -/
def rodNext (i : Instr) (s : State) (e : EngId) (n k : Nat) (y : Rod × Flags) : Prop :=
  regsNext i s e n (((s.regsOf e).setK k y.1).setFl y.2)

/-- The length in words of a form of two or three registers. -/
def wsumLen : WSum → Nat
  | .s _ _ => 1
  | .l _ _ _ _ => 2
/-- The length in words of a logic form. -/
def wlogLen : WLog → Nat
  | .s _ _ => 1
  | .l _ _ _ => 2

/-- What a narrowing leaves: its destination, SW, and in RESIDUE mode alone the residue register (R30, R33). -/
def narrowed {n : Nat} (put : Regs → BitVec n → Regs) (r : Regs) (res : Nat) (mode : BitVec 3) (y : BitVec n × Flags × Word) : Regs :=
  let q := (put r y.1).setFl y.2.1
  if mode = 5#3 then q.setE res y.2.2 else q

/-- The element-wise result of a lane instruction that reports overflow: the destination's active lanes, the others kept or
zeroed, and the lane flags of the active lanes (R56, R58, R59). -/
def laneNext (i : Instr) (s : State) (e : EngId) (n d : Nat) (act : Nat → Bool) (z : Bool) (f : Nat → LaneRes) : Prop :=
  regsNext i s e n (((s.regsOf e).putLanes d act z fun j => (f j).val).laneFlags act
    (fun j => (f j).ovr) (fun j => (f j).sticky) (fun j => (f j).limited))

/-- A lane accumulator instruction: the active lanes modulo 2^48, VV and VSO from the exact values (R60). -/
def accNext (i : Instr) (s : State) (e : EngId) (n u : Nat) (act : Nat → Bool) (f : Nat → Int) : Prop :=
  regsNext i s e n (((s.regsOf e).setU u fun j => if act j then some (BitVec.ofInt 48 (f j)) else none).laneFlags act
    (fun j => f j != satInt 48 (f j)) (fun j => f j != satInt 48 (f j)) fun _ => false)

/-- A lane compare: the active lanes' bits of the predicate (R58). -/
def predNext (i : Instr) (s : State) (e : EngId) (p : Nat) (act f : Nat → Bool) : Prop :=
  regsNext i s e 2 ((s.regsOf e).setP p (wordOfBits fun j => if act j then f j else ((s.regsOf e).rp p).getLsbD j))

/-- The length in words of a lane form. -/
def vsumLen : VSum → Nat
  | .s _ _ => 1
  | .l _ _ _ _ _ => 2
/-- The length in words of a lane accumulator form. -/
def vaccLen : VAcc → Nat
  | .s _ _ _ => 1
  | .l _ _ _ _ => 2

/-- What VRND leaves (R62): in RESIDUE mode the lane residues first, then the narrowed lanes and the lane flags. -/
def vnarrowed (r : Regs) (d u v sh : Nat) (act : Nat → Bool) (z : Bool) (mode : BitVec 3) (sat : Bool) : Regs :=
  let y := fun j => laneNarrow (r.ru u j) sh mode sat (r.rv v j)
  let q := if mode = 5#3 then r.setV v fun j => if act j then some (y j).2 else none else r
  (q.putLanes d act z fun j => (y j).1.val).laneFlags act
    (fun j => (y j).1.ovr) (fun j => (y j).1.sticky) (fun j => (y j).1.limited)

/-! ### Exceptions -/

/-- What an exception to a kernel vector leaves of its engine: all but PSR, the saved registers, the point, the handler
marks, what fetch translates with, and a retirement's bookkeeping. -/
def Engine.aside (x : Engine) : Engine :=
  { x.rest with
    psr := {}, hstk := [], heldK := [], ftlb := [], fasid := 0#12
    ctrl := { x.rest.ctrl with spot := 0#48, snext := 0#48, cause := 0#16, badaddr := 0#48, tw0 := 0#16, tw1 := 0#16, tw2 := 0#16 } }

/-- The engine `x` of an instruction of n words has taken an exception to the kernel vector at offset `off` with the CAUSE
given, and is now `y` (R140); fetch translates with the TLB and the ASID as they stand (R95). -/
def kernTaken (x y : Engine) (n : Nat) (cause : Word) (off : Nat) : Prop :=
  y.ctrl.spot = x.pc ∧ y.ctrl.snext = x.pc + BitVec.ofNat 48 n ∧ y.ctrl.cause = cause ∧
    y.psr = { mode := .kernel, ie := false, hl := true, walk := false, rpe := false
              pkernel := decide (x.psr.mode = .kernel), pie := x.psr.ie, prpe := x.psr.rpe } ∧
    y.pc = x.ctrl.vbase + BitVec.ofNat 48 off ∧ y.npc = none ∧ y.regs = x.regs ∧
    y.ftlb = x.tlb ∧ y.fasid = x.ctrl.asid ∧ y.aside = x.aside

/-- The instruction takes an exception to a kernel vector as its effect, and nothing outside its engine changes. -/
def kernNext (i : Instr) (s : State) (e : EngId) (n : Nat) (cause : Word) (off : Nat) : Prop :=
  ∃ t, exec i s = .next t ∧ kernTaken (s.engAt e) (t.engAt e) n cause off ∧ sameBut e s t

/-- The same with TW0 to TW2 written. -/
def kernNextTw (i : Instr) (s : State) (e : EngId) (n : Nat) (cause : Word) (off : Nat) (w0 w1 w2 : Word) : Prop :=
  ∃ t, exec i s = .next t ∧ kernTaken (s.engAt e) (t.engAt e) n cause off ∧
    ((t.engAt e).ctrl.tw0 = w0 ∧ (t.engAt e).ctrl.tw1 = w1 ∧ (t.engAt e).ctrl.tw2 = w2) ∧ sameBut e s t

/-- An exception of engine e's next instruction is taken to a kernel vector: user or kernel mode, outside a handler, with
nothing left in the store buffer. -/
def excOpen (s : State) (e : EngId) : Bool :=
  decide ((s.engAt e).psr.mode ≠ .machine) && !(s.engAt e).psr.hl && (s.engAt e).sb.isEmpty

/-- The instruction changes its engine to `y`, but for the pc, n words on, and a retirement's bookkeeping; and nothing outside. -/
def engNext (i : Instr) (s : State) (e : EngId) (n : Nat) (y : Engine) : Prop :=
  ∃ t, exec i s = .next t ∧ (t.engAt e).regs = y.regs ∧ (t.engAt e).pc = (s.engAt e).pc + BitVec.ofNat 48 n ∧
    (t.engAt e).npc = none ∧ (t.engAt e).rest = y.rest ∧ sameBut e s t

/-! ### Loads and stores -/

/-- A word of memory or of the Counting Board window as a load reads it that the store buffer does not answer: through the
data cache on a cacheable page (R200), else in place. -/
def wordSeen (s : State) (e : EngId) (p : Phys) : Word :=
  if p.cached then (cacheWord (s.engAt e) p.pa).1
  else if regionOf p.pa = .board then boardWindow s (p.pa - 0x5000000000) else s.readMem p.pa

/-- The word can be read where it stands: its line is in the data cache, or it is in an uncached memory and not marked
uncorrectable, or it is in the board window. -/
def wordThere (s : State) (e : EngId) (p : Phys) : Bool :=
  if p.cached then ((s.engAt e).dcache.any fun d => d.line == lineOf p.pa) && !(cacheWord (s.engAt e) p.pa).2
  else decide (regionOf p.pa = .board) || ((regionOf p.pa).isMemory && !isBad s p.pa)

/-- What a load of z words at va reads, where it is permitted (R188), waits for nothing and changes nothing but registers: words forwarded
from the buffered store that holds them all (R97), or read where they stand; no device store is buffered (R203). -/
def loadsNow (s : State) (e : EngId) (va : Addr) (z : Nat) : Option (List Word) :=
  match translate s e (accessVas va z) .load with
  | .error _ => none
  | .ok ps =>
    if (ps.any fun p => decide (regionOf p.pa = .host)) || decide (devPlace (s.engAt e).sb ≠ 0) then none
    else match sbAnswer (s.engAt e) ps with
      | .forward bs => some (ps.map fun p => storedWord bs p.pa)
      | .drain n => if n = 0 ∧ (ps.all fun p => wordThere s e p) = true then some (ps.map fun p => wordSeen s e p) else none
      | .memory => if (ps.all fun p => wordThere s e p) = true then some (ps.map fun p => wordSeen s e p) else none

/-- The lines of the words an access may cache stand in the data cache (R200). -/
def linesHeld (x : Engine) (ps : List Phys) : Bool :=
  ps.all fun p => !p.cached || x.dcache.any fun d => d.line == lineOf p.pa

/-- The entries of a store of z words at va where it is permitted, brings no line into the data cache and finds room in the store buffer. -/
def storesNow (s : State) (e : EngId) (va : Addr) (z : Nat) (ws : List Word) : Option (List SbEntry) :=
  match translate s e (accessVas va z) .store with
  | .error _ => none
  | .ok ps =>
    let es := storeEntries (s.engAt e).ctrl.hinst.toNat ps ws
    if linesHeld (s.engAt e) ps = true ∧ (s.engAt e).sb.length + es.length ≤ 8 then some es else none

/-- The length in words of a word or long load or store. -/
def memLen : MemOp → Nat
  | .sm _ _ => 1
  | .lm _ _ => 2

/-! ### Branches, returns, drains -/

/-- What a branch leaves of its engine besides its place: all but the predictor (R92) and a retirement's bookkeeping. -/
def Engine.unpredicted (x : Engine) : Engine :=
  { x.rest with npc := none, slot := false, btb := [], pctr := [], ghist := 0#12 }

/-- A branch of n words retires: its delay slot stands next, its target after it when taken, the slot annulled when not taken and
the branch says so (R89); nothing else changes but the predictor, the two free values it draws, and `r`. -/
def branchNext (i : Instr) (s : State) (e : EngId) (n : Nat) (taken : Bool) (target : Addr) (annul : Bool) (r : Regs) : Prop :=
  ∃ t, exec i s = .next t ∧ (t.engAt e).pc = (s.engAt e).pc + BitVec.ofNat 48 n ∧
    (t.engAt e).npc = (if taken then some target else none) ∧ (t.engAt e).slot = true ∧
    (t.engAt e).annul = (annul && !taken) ∧ (t.engAt e).regs = r ∧
    (t.engAt e).unpredicted = (s.engAt e).unpredicted ∧ sameBut e { s with fv := s.fv + 2 } t

/-- What a return from a handler leaves of its engine: all but PSR, the job's registers, the place, the handler marks and what fetch
translates with. -/
def Engine.returned (x : Engine) : Engine :=
  { x.rest with psr := {}, npc := none, hstk := [], heldK := [], heldM := {}, ftlb := [], fasid := 0#12 }

/-- A return from a handler, the store buffer performed first: `t` follows `u`, the device with engine e's buffer drained. PSR, the point,
the continuation and the job's registers are as given; fetch translates with the TLB and the ASID as they stand (R95, R128, R142);
nothing else differs. -/
def returnedFrom (e : EngId) (u t : State) (p : Psr) (pc : Addr) (npc : Option Addr) (r : Regs) : Prop :=
  let y := t.engAt e
  y.psr = p ∧ y.pc = pc ∧ y.npc = npc ∧ y.regs = r ∧ y.ftlb = (u.engAt e).tlb ∧ y.fasid = (u.engAt e).ctrl.asid ∧
    y.returned = (u.engAt e).returned ∧ sameBut e u t

/-- A step from the place of an engine, in a delay slot or at a repeat's end: the new place and registers, and nothing else. -/
def placeNext (i : Instr) (s : State) (e : EngId) (pc : Addr) (r : Regs) : Prop :=
  ∃ t, exec i s = .next t ∧ (t.engAt e).pc = pc ∧ (t.engAt e).npc = none ∧ (t.engAt e).slot = false ∧ (t.engAt e).regs = r ∧
    { (t.engAt e).rest with npc := none, slot := false } = { (s.engAt e).rest with npc := none, slot := false } ∧ sameBut e s t

/-- Everything but the engines' store buffers, memory and its uncorrectable marks is the same, but for the next instruction's
retirement; `mem` is the memory, engine e's buffer is empty, and the rest of the engine is that of y. -/
def drainedNext (i : Instr) (s : State) (e : EngId) (y : Engine) (mem : List Host.Cell) : Prop :=
  ∃ t, exec i s = .next t ∧ (t.engAt e).sb = [] ∧ t.mem = mem ∧ (t.engAt e).regs = (s.engAt e).regs ∧
    (t.engAt e).pc = (s.engAt e).pc + 1#48 ∧ (t.engAt e).npc = none ∧
    (t.engAt e).rest = { y.rest with sb := [] } ∧ (∀ g, g ≠ e → t.engAt g = s.engAt g) ∧
    { t with mem := [], bad := [], eng := [] } = { s with mem := [], bad := [], eng := [] }

/-! ### Commands of the other units -/

/-- The command runs to a next state of which `p` holds. -/
def answers (i : Instr) (s : State) (p : State → Prop) : Prop := ∃ t, exec i s = .next t ∧ p t

/-- The engines and their memory are as they were. -/
def coreKept (s t : State) : Prop := t.eng = s.eng ∧ t.mem = s.mem

/-- The reckoners and memory are as they were; an entry of the journal may ask for the stewards' line (R450). -/
def reckonersKept (s t : State) : Prop := t.mem = s.mem ∧ ∀ e : EngId, isReckoner e = true → t.engAt e = s.engAt e

/-- A register write of an agent leaves the engines and their memory as they were, but for the journal entry of one by the debug port (R479). -/
def coreKeptFor (ag : Agent) (s t : State) : Prop := reckonersKept s t ∧ (ag ≠ .debug → coreKept s t)

/-- A register write of an agent leaves the device as it was, but for the journal entry of one by the debug port (R479). -/
def sameFor (ag : Agent) (s t : State) : Prop :=
  (ag ≠ .debug → t = s) ∧ { t with jr := s.jr, csr := s.csr, eng := s.eng, fv := s.fv, clk := s.clk } = s ∧
    (∀ off, off / 8 ≠ 0x7000 → t.reg off = s.reg off) ∧ ∀ e : EngId, isReckoner e = true → t.engAt e = s.engAt e

/-- What is outside the always-on domain is lost: engines, memory, frames, boards, counters, instances. -/
def coreGone (t : State) : Prop := t.eng = [] ∧ t.mem = [] ∧ t.frames = [] ∧ t.boards = [] ∧ t.cnt = [] ∧ t.inst = []

/-- The device once the blocks of a CHANNEL_OPEN whose parameter block is b have been read (R306). -/
def State.blocksRead (s : State) (e : Entry) (b : List Word) : State :=
  let n := e.ring.val
  let l := [(entryArgs e 3 3, 144), (wordsAt b 60 3, 2 * fld (wordAt b 15) 0 7),
    (wordsAt b 63 3, if (openReq b).coached then 2 * (wordAt b 66).toNat else 0)]
  l.foldl (fun s x => if s.leads && decide (x.2 ≠ 0) then s.hostRead n x.1 x.2 else s) s

/-- A command of a ring: not read, nothing happens; read, HEAD advances, and where a check before its own refuses it nothing that
the Innkeeper, the Gatehouse, the boards, the frames or the pieces hold changes; where the checks pass and `ok` holds of the
device once it is read, `eff` holds of that device and the next. -/
def commandRuns (c : Instr) (e : Entry) (op : Nat) (mgr : Bool) (used : List Nat) (s : State) (ok : State → Prop)
    (eff : State → State → Prop) : Prop :=
  let n := e.ring.val
  let u := s.cmdRead n
  (s.readsRing n = false → answers c s fun t => t = s) ∧
  (s.readsRing n = true → u.precheck e op mgr ≠ none ∨ entryUses e used = false → answers c s fun t =>
    t.reg (portal n 5) = s.reg (portal n 5) + 1 ∧ t.mem = s.mem ∧ t.ik = s.ik ∧ t.gh = s.gh ∧ t.frames = s.frames ∧
      t.boards = s.boards ∧ t.cf = s.cf) ∧
  (s.readsRing n = true → u.precheck e op mgr = none → entryUses e used = true → ok u → answers c s fun t =>
    t.reg (portal n 5) = s.reg (portal n 5) + 1 ∧ eff u t)

end Sys2Proof.Machine
end

