-- ==== Sys2Proof/Certificates/Slice0/Obligations.lean ====
section
/-! DEFINITION. The statements for the provers, in the terms of Safety. A statement about an engine's instruction is about the command
that issues it (log 2). -/
open Sys2Proof Sys2Proof.Machine

/-- A step runs the command at the front of the queue on the device with the queue's rest; on an empty queue the block idles (the model's choice: the
table has no row for a tick).
What it says of log 1 is the model's choice. -/
def Obligations.StepRunsCommand : Prop :=
  (∀ (s : State) (c : Instr) (cs : List Instr), step { s with pending := c :: cs } = exec c { s with pending := cs }) ∧
  ∀ s : State, s.pending = [] → step s = .next s

/-- The device right after power-on with the always-on domain up (R319, R322, R366, R377): nothing waits, memory lists nothing and is in canonical form, device
time is 0 with the nominal increment, no engine, coach, board or stream is there, and the device is SOLO with its link down.
What it says of log 3, 4 and 5 is the model's choice. -/
def Obligations.ResetState : Prop :=
  let s := State.reset
  Memory.wf s.mem = true ∧ s.mem = [] ∧ s.pending = [] ∧ s.time = 0 ∧ s.clk.inc = (7330077, 4861, 9375) ∧ s.clk.resid = 0 ∧ s.clk.fired = [] ∧
  s.eng = [] ∧ s.boards = [] ∧ s.posts = [] ∧ s.ik.coaches = [] ∧ s.gh.streams = [] ∧ s.role = 0 ∧ s.sync = false ∧ s.linkUp = false

/-- The moves between job registers, and of SW and MW, write their destination and nothing else (R152, R120, R116). A write of MW with
a rounding code of 6 or 7 is not among them: it raises EMULATE (R32).
What it says of log 2 is the model's choice. -/
def Obligations.RegisterMoves : Prop := ∀ (s : State) (e : EngId), let r := s.regsOf e
  (clear s e 1 = true →
    (∀ d a : Fin 32, regsNext (.mov e d a) s e 1 (r.setW d (r.rw a))) ∧
    (∀ (d : Fin 32) (i : BitVec 5), regsNext (.movq e d i) s e 1 (r.setW d (i.signExtend 16))) ∧
    (∀ d : Fin 32, regsNext (.mfsw e d) s e 1 (r.setW d r.fl.toWord)) ∧
    (∀ a : Fin 32, regsNext (.mtsw e a) s e 1 (r.setFl (Flags.ofWord (r.rw a)))) ∧
    (∀ d : Fin 32, regsNext (.mfmw e d) s e 1 (r.setW d r.mw.toWord)) ∧
    (∀ a : Fin 32, ((r.rw a).extractLsb' 0 3).toNat < 6 →
      regsNext (.mtmw e a) s e 1 { r with mw := ModeWord.ofWord (r.rw a) })) ∧
  (clear s e 2 = true →
    (∀ (d : Fin 32) (i : Word), regsNext (.movi e d i) s e 2 (r.setW d i)) ∧
    (∀ d a : Fin 16, regsNext (.lmov e d a) s e 2 (r.setL d (r.rl a))) ∧
    (∀ d a : Fin 16, regsNext (.amov e d a) s e 2 (r.setA d (r.ra a))) ∧
    (∀ d a : Fin 16, regsNext (.amovl e d a) s e 2 (r.setA d ((r.rl a).zeroExtend 48))) ∧
    (∀ d a : Fin 16, regsNext (.lmova e d a) s e 2 (r.setL d ((r.ra a).extractLsb' 0 32)))) ∧
  (clear s e 3 = true →
    (∀ (d : Fin 16) (i : Long), regsNext (.lmovi e d i) s e 3 (r.setL d i)) ∧
    (∀ (d : Fin 16) (i : Long), regsNext (.amovi e d i) s e 3 (r.setA d (i.signExtend 48))) ∧
    (∀ (d : Fin 16) (i : Word), regsNext (.amovhi e d i) s e 3 (r.setA d (i ++ (r.ra d).extractLsb' 0 32))))

/-- The word sums, differences, logic, compares, shifts, products and their immediate forms (R24, R26, R28, R37, R47 to R49, R52, R153): the
destination is the exact result fitted to its width by the suffix or MW.OVF, SW as R26 gives, and nothing else changes.
What it says of log 2 is the model's choice. -/
def Obligations.WordInstructions : Prop := ∀ (s : State) (e : EngId), let r := s.regsOf e
  (∀ f : WSum, clear s e (wsumLen f) = true →
    wordNext (.add e f) s e (wsumLen f) (wsumDst f)
      (fit 16 (saturates (wsumSfx f) r.mw) ((wsumArgs f r).1.toInt + (wsumArgs f r).2.toInt) r.fl) ∧
    wordNext (.sub e f) s e (wsumLen f) (wsumDst f)
      (fit 16 (saturates (wsumSfx f) r.mw) ((wsumArgs f r).1.toInt - (wsumArgs f r).2.toInt) r.fl)) ∧
  (∀ f : WLog, clear s e (wlogLen f) = true →
    wordNext (.and e f) s e (wlogLen f) (wlogDst f) (plain ((wlogArgs f r).1 &&& (wlogArgs f r).2) r.fl) ∧
    wordNext (.or e f) s e (wlogLen f) (wlogDst f) (plain ((wlogArgs f r).1 ||| (wlogArgs f r).2) r.fl) ∧
    wordNext (.xor e f) s e (wlogLen f) (wlogDst f) (plain ((wlogArgs f r).1 ^^^ (wlogArgs f r).2) r.fl)) ∧
  (∀ a b : Fin 32, clear s e 1 = true → regsNext (.cmp e true a b) s e 1 (r.setFl (cmpS 16 (r.rw a) (r.rw b) r.fl))) ∧
  (∀ (d : Fin 32) (i : BitVec 5), clear s e 1 = true →
    wordNext (.addq e d i) s e 1 d (fit 16 (!r.mw.wrap) ((r.rw d).toInt + i.toInt) r.fl)) ∧
  (clear s e 2 = true → ∀ (d a b : Fin 32) (i : Word) (x : Sfx),
    regsNext (.cmp e false a b) s e 2 (r.setFl (cmpS 16 (r.rw a) (r.rw b) r.fl)) ∧
    regsNext (.cmpu e a b) s e 2 (r.setFl (cmpU 16 (r.rw a) (r.rw b) r.fl)) ∧
    wordNext (.addu e d a b) s e 2 d (addU 16 (r.rw a) (r.rw b) r.fl) ∧
    wordNext (.subu e d a b) s e 2 d (subU 16 (r.rw a) (r.rw b) r.fl) ∧
    wordNext (.abs e d a x) s e 2 d (quiet 16 (saturates x r.mw) ((r.rw a).toInt.natAbs : Int) r.fl) ∧
    wordNext (.neg e d a x) s e 2 d (quiet 16 (saturates x r.mw) (-(r.rw a).toInt) r.fl) ∧
    wordNext (.min e d a b) s e 2 d (plain (if (r.rw a).toInt ≤ (r.rw b).toInt then r.rw a else r.rw b) r.fl) ∧
    wordNext (.max e d a b) s e 2 d (plain (if (r.rw a).toInt ≤ (r.rw b).toInt then r.rw b else r.rw a) r.fl) ∧
    wordNext (.not e d a) s e 2 d (plain (~~~(r.rw a)) r.fl) ∧
    wordNext (.addi e d i x) s e 2 d (fit 16 (saturates x r.mw) ((r.rw d).toInt + i.toInt) r.fl) ∧
    wordNext (.addui e d i) s e 2 d (addU 16 (r.rw d) i r.fl) ∧
    wordNext (.andi e d i) s e 2 d (plain (r.rw d &&& i) r.fl) ∧
    wordNext (.ori e d i) s e 2 d (plain (r.rw d ||| i) r.fl) ∧
    wordNext (.xori e d i) s e 2 d (plain (r.rw d ^^^ i) r.fl) ∧
    regsNext (.cmpi e d i) s e 2 (r.setFl (cmpS 16 (r.rw d) i r.fl)) ∧
    regsNext (.cmpui e d i) s e 2 (r.setFl (cmpU 16 (r.rw d) i r.fl))) ∧
  (∀ (d : Fin 32) (i : BitVec 5), clear s e 1 = true →
    wordNext (.shlq e d i) s e 1 d (fit 16 (!r.mw.wrap) (shiftExact (r.rw d).toInt i.toInt) r.fl)) ∧
  (clear s e 2 = true → ∀ (d a b : Fin 32) (i : Word) (x : Sfx),
    wordNext (.shl e d a b x) s e 2 d (fit 16 (saturates x r.mw) (shiftExact (r.rw a).toInt (r.rw b).toInt) r.fl) ∧
    wordNext (.shr e d a b x) s e 2 d (fit 16 (saturates x r.mw) (shiftExact (r.rw a).toInt (-(r.rw b).toInt)) r.fl) ∧
    wordNext (.shrr e d a b x) s e 2 d (fit 16 (saturates x r.mw) (shiftRound (r.rw a).toInt (r.rw b).toInt) r.fl) ∧
    wordNext (.lsl e d a b) s e 2 d (lsl 16 (r.rw a) (r.rw b).toNat r.fl) ∧
    wordNext (.lsr e d a b) s e 2 d (lsr 16 (r.rw a) (r.rw b).toNat r.fl) ∧
    wordNext (.shli e d i x) s e 2 d (fit 16 (saturates x r.mw) (shiftExact (r.rw d).toInt i.toInt) r.fl) ∧
    wordNext (.lsli e d i) s e 2 d (lsl 16 (r.rw d) i.toNat r.fl) ∧
    wordNext (.lsri e d i) s e 2 d (lsr 16 (r.rw d) i.toNat r.fl) ∧
    wordNext (.norm e d a) s e 2 d (plain (BitVec.ofNat 16 (norm 16 (r.rw a).toInt)) r.fl) ∧
    wordNext (.mulh e d a b x) s e 2 d
      (fit 16 (saturates x r.mw) (Int.fdiv ((r.rw a).toInt * (r.rw b).toInt) 32768) r.fl) ∧
    wordNext (.mulr e d a b x) s e 2 d
      (fit 16 (saturates x r.mw) (Int.fdiv ((r.rw a).toInt * (r.rw b).toInt + 16384) 32768) r.fl)) ∧
  (clear s e 2 = true → ∀ (d : Fin 16) (a b : Fin 32) (x : Sfx),
    longNext (.mul e d a b) s e 2 d (plain (BitVec.ofInt 32 ((r.rw a).toInt * (r.rw b).toInt)) r.fl) ∧
    longNext (.mulu e d a b) s e 2 d (plain (BitVec.ofNat 32 ((r.rw a).toNat * (r.rw b).toNat)) r.fl) ∧
    longNext (.mulf e d a b x) s e 2 d (fit 32 (saturates x r.mw) (2 * (r.rw a).toInt * (r.rw b).toInt) r.fl))

/-- NORM and LNORM (R51): for a nonzero value the most places it can be doubled and still fit, 0 for 0; Z and N from the result, V cleared. -/
def Obligations.NormCounts : Prop :=
  (∀ (n : Nat) (a : Int), 0 < n → a ≠ 0 → -(2 ^ (n - 1)) ≤ a → a < 2 ^ (n - 1) → let k := norm n a
    k ≤ n - 1 ∧ -(2 ^ (n - 1)) ≤ a * 2 ^ k ∧ a * 2 ^ k < 2 ^ (n - 1) ∧
      ∀ j, j ≤ n - 1 → -(2 ^ (n - 1)) ≤ a * 2 ^ j → a * 2 ^ j < 2 ^ (n - 1) → j ≤ k) ∧
  norm 16 0 = 0 ∧ norm 32 0 = 0 ∧
  ∀ (s : State) (e : EngId) (d : Fin 32), clear s e 2 = true → let r := s.regsOf e
    let put := fun y : Word => (r.setW d y).setFl { r.fl with v := false, z := decide (y = 0#16), n := y.getLsbD 15 }
    (∀ a : Fin 32, regsNext (.norm e d a) s e 2 (put (BitVec.ofNat 16 (norm 16 (r.rw a).toInt)))) ∧
    ∀ a : Fin 16, regsNext (.lnorm e d a) s e 2 (put (BitVec.ofNat 16 (norm 32 (r.rl a).toInt)))

/-- The rounding modes (R30): the integer each takes for the exact value x / 2^s, its value where it fits, the limit with V, SO and SAT set or the
value modulo 2^n with V set where it does not; in RESIDUE mode what the rounding left over is the next residue, and 0 where a limit
replaced the result. -/
def Obligations.RoundingModes : Prop :=
  (∀ (n s : Nat) (x : Int) (mode : BitVec 3) (sat : Bool) (e : Word) (f : Flags), mode.toNat < 6 →
  let d : Int := 2 ^ s
  ∃ y : Int, (narrow n x s mode sat e f).1 = (fit n sat y f).1 ∧ (narrow n x s mode sat e f).2.1 = (fit n sat y f).2 ∧
    (mode.toNat = 0 → y * d ≤ x ∧ x < (y + 1) * d) ∧
    (mode.toNat = 1 → 0 ≤ y * x ∧ y.natAbs * 2 ^ s ≤ x.natAbs ∧ x.natAbs < (y.natAbs + 1) * 2 ^ s) ∧
    (mode.toNat = 2 → (2 * y - 1) * d ≤ 2 * x ∧ 2 * x < (2 * y + 1) * d) ∧
    (mode.toNat = 3 → (2 * x - 2 * y * d).natAbs ≤ 2 ^ s ∧ ((2 * x - 2 * y * d).natAbs = 2 ^ s → y % 2 = 0)) ∧
    (mode.toNat = 4 → (2 * x - 2 * y * d).natAbs ≤ 2 ^ s ∧ ((2 * x - 2 * y * d).natAbs = 2 ^ s → x.natAbs ≤ (y * d).natAbs)) ∧
    (if mode.toNat = 5 then ∃ t : Int, t * d ≤ x * 65536 ∧ x * 65536 < (t + 1) * d ∧
        -32768 ≤ t + e.toInt - 65536 * y ∧ t + e.toInt - 65536 * y ≤ 32767 ∧
        (narrow n x s mode sat e f).2.2 = if (fit n sat y f).2.v = true ∧ sat = true then 0#16 else BitVec.ofInt 16 (t + e.toInt - 65536 * y)
      else (narrow n x s mode sat e f).2.2 = e)) ∧
  (∀ (n : Nat) (sat : Bool) (y : Int) (f : Flags), 0 < n →
  let r := fit n sat y f; let lo : Int := -(2 ^ (n - 1)); let hi : Int := 2 ^ (n - 1) - 1
  r.2.z = decide (r.1 = 0) ∧ r.2.n = decide (r.1.toInt < 0) ∧ r.2.c = f.c ∧
  (lo ≤ y ∧ y ≤ hi → r.1.toInt = y ∧ r.2.v = false ∧ r.2.so = f.so ∧ r.2.sat = f.sat) ∧
  (y < lo ∨ hi < y → r.2.v = true ∧
    (sat = true → r.1.toInt = (if y < lo then lo else hi) ∧ r.2.so = true ∧ r.2.sat = true) ∧
    (sat = false → r.1 = BitVec.ofInt n y ∧ r.2.so = f.so ∧ r.2.sat = f.sat)))

/-- The divides (R42 to R45), where MW.DZT and a zero divisor do not trap: quotient in the low word of the destination and remainder in the
high one, DIVQ its quotient alone; the quotient is exact where it fits and the limit with V set where it does not, the remainder is always exact; a
zero divisor gives the limit, remainder 0 and V, SO and SAT.
What it says of log 2 is the model's choice. -/
def Obligations.Divides : Prop :=
  (∀ (s : State) (e : EngId), clear s e 2 = true → let r := s.regsOf e
  (∀ (d : Fin 16) (a b : Fin 32), (r.mw.dzt = true → r.rw b ≠ 0#16) →
    regsNext (.div e d a b) s e 2 (r.setDiv d (divS (r.rw a).toInt (r.rw b).toInt r.fl)) ∧
    regsNext (.divu e d a b) s e 2 (r.setDiv d (divU (r.rw a).toNat (r.rw b).toNat r.fl))) ∧
  (∀ d a b : Fin 32, (r.mw.dzt = true → r.rw b ≠ 0#16) →
    wordNext (.divq e d a b) s e 2 d (divQ (r.rw a).toInt (r.rw b).toInt r.fl)) ∧
  (∀ (d a : Fin 16) (b : Fin 32), (r.mw.dzt = true → r.rw b ≠ 0#16) →
    regsNext (.ldiv e d a b) s e 2 (r.setDiv d (divS (r.rl a).toInt (r.rw b).toInt r.fl)) ∧
    regsNext (.ldivu e d a b) s e 2 (r.setDiv d (divU (r.rl a).toNat (r.rw b).toNat r.fl)))) ∧
  (∀ (a : Int) (b : Word) (f : Flags), -2147483648 ≤ a → a ≤ 2147483647 → b ≠ 0#16 →
    ∃ q : Int, let r := divS a b.toInt f
      a = q * b.toInt + r.2.1.toInt ∧ r.2.1.toInt.natAbs < b.toInt.natAbs ∧ (r.2.1.toInt = 0 ∨ (r.2.1.toInt < 0 ↔ a < 0)) ∧
      r.2.2.v = decide (q < -32768 ∨ 32767 < q) ∧ r.2.2.z = decide (r.1 = 0#16) ∧ r.2.2.n = r.1.getLsbD 15 ∧
      r.1.toInt = (if q < -32768 then -32768 else if 32767 < q then 32767 else q)) ∧
  (∀ (a : Nat) (b : Word) (f : Flags), b ≠ 0#16 →
    ∃ q : Nat, let r := divU a b.toNat f
      a = q * b.toNat + r.2.1.toNat ∧ r.2.1.toNat < b.toNat ∧ r.2.2.v = decide (65536 ≤ q) ∧
      r.1.toNat = (if 65536 ≤ q then 65535 else q)) ∧
  (∀ (a : Int) (b : Word) (f : Flags), -32768 ≤ a → a ≤ 32767 → b ≠ 0#16 → let r := divQ a b.toInt f;
    if a = b.toInt then r.1 = 0x7FFF#16 ∧ r.2.v = false ∧ r.2.sat = true ∧ r.2.so = f.so
    else ∃ q : Int, (a * 32768 - q * b.toInt).natAbs < b.toInt.natAbs ∧ 0 ≤ (a * 32768 - q * b.toInt) * a ∧ r.2.v = decide (q < -32768 ∨ 32767 < q) ∧
      r.1.toInt = (if q < -32768 then -32768 else if 32767 < q then 32767 else q)) ∧
  ∀ (a : Int) (n : Nat) (f : Flags), let limit : Word := if 0 ≤ a then 0x7FFF#16 else 0x8000#16;
    let set := fun (g : Flags) (y : Word) => g = { f with v := true, so := true, sat := true, z := false, n := y.getLsbD 15 };
    (divS a 0 f).1 = limit ∧ (divS a 0 f).2.1 = 0#16 ∧ set (divS a 0 f).2.2 limit ∧ (divQ a 0 f).1 = limit ∧ set (divQ a 0 f).2 limit ∧
      (divU n 0 f).1 = 0xFFFF#16 ∧ (divU n 0 f).2.1 = 0#16 ∧ set (divU n 0 f).2.2 0xFFFF#16

/-- The long sums, logic, compares, shifts, multiply-accumulates, carry instructions, halves, RNDH and address arithmetic modulo 2^48 (R24, R28,
R31, R37, R47 to R50, R52 to R54, R118, R154): destination and SW as the rules give, and nothing else changes.
What it says of log 2 is the model's choice. -/
def Obligations.LongInstructions : Prop := ∀ (s : State) (e : EngId), let r := s.regsOf e
  (clear s e 2 = true → ∀ (d a b : Fin 16) (t : Fin 32) (x : Sfx),
    longNext (.ladd e d a b x) s e 2 d (fit 32 (saturates x r.mw) ((r.rl a).toInt + (r.rl b).toInt) r.fl) ∧
    longNext (.lsub e d a b x) s e 2 d (fit 32 (saturates x r.mw) ((r.rl a).toInt - (r.rl b).toInt) r.fl) ∧
    longNext (.laddu e d a b) s e 2 d (addU 32 (r.rl a) (r.rl b) r.fl) ∧
    longNext (.lsubu e d a b) s e 2 d (subU 32 (r.rl a) (r.rl b) r.fl) ∧
    longNext (.labs e d a x) s e 2 d (quiet 32 (saturates x r.mw) ((r.rl a).toInt.natAbs : Int) r.fl) ∧
    longNext (.lneg e d a x) s e 2 d (quiet 32 (saturates x r.mw) (-(r.rl a).toInt) r.fl) ∧
    longNext (.laddc e d a b) s e 2 d (laddc (r.rl a) (r.rl b) r.fl) ∧
    longNext (.lsubc e d a b) s e 2 d (lsubc (r.rl a) (r.rl b) r.fl) ∧
    longNext (.lsat e d a) s e 2 d (lsat (r.rl a) r.fl) ∧
    longNext (.land e d a b) s e 2 d (plain (r.rl a &&& r.rl b) r.fl) ∧
    longNext (.lor e d a b) s e 2 d (plain (r.rl a ||| r.rl b) r.fl) ∧
    longNext (.lxor e d a b) s e 2 d (plain (r.rl a ^^^ r.rl b) r.fl) ∧
    regsNext (.lcmp e a b) s e 2 (r.setFl (cmpS 32 (r.rl a) (r.rl b) r.fl)) ∧
    longNext (.lshl e d a t x) s e 2 d (fit 32 (saturates x r.mw) (shiftExact (r.rl a).toInt (r.rw t).toInt) r.fl) ∧
    longNext (.lshr e d a t x) s e 2 d (fit 32 (saturates x r.mw) (shiftExact (r.rl a).toInt (-(r.rw t).toInt)) r.fl) ∧
    longNext (.lshrr e d a t x) s e 2 d (fit 32 (saturates x r.mw) (shiftRound (r.rl a).toInt (r.rw t).toInt) r.fl) ∧
    longNext (.llsl e d a t) s e 2 d (lsl 32 (r.rl a) (r.rw t).toNat r.fl) ∧
    longNext (.llsr e d a t) s e 2 d (lsr 32 (r.rl a) (r.rw t).toNat r.fl)) ∧
  (clear s e 2 = true → ∀ (d : Fin 16) (a b : Fin 32) (x : Sfx),
    longNext (.lmac e d a b x) s e 2 d (lmac (saturates x r.mw) 1 (r.rl d) (r.rw a) (r.rw b) r.fl) ∧
    longNext (.lmsu e d a b x) s e 2 d (lmac (saturates x r.mw) (-1) (r.rl d) (r.rw a) (r.rw b) r.fl) ∧
    longNext (.lmacc e d a b) s e 2 d
      (laddc (r.rl d) (mulf true (r.rw a) (r.rw b) r.fl).1 (mulf true (r.rw a) (r.rw b) r.fl).2) ∧
    longNext (.lmsuc e d a b) s e 2 d
      (lsubc (r.rl d) (mulf true (r.rw a) (r.rw b) r.fl).1 (mulf true (r.rw a) (r.rw b) r.fl).2) ∧
    longNext (.macr e d a b) s e 2 d
      ((macr 1 (r.rl d) (r.rw a) (r.rw b) r.fl).1 ++ 0#16, (macr 1 (r.rl d) (r.rw a) (r.rw b) r.fl).2) ∧
    longNext (.msur e d a b) s e 2 d
      ((macr (-1) (r.rl d) (r.rw a) (r.rw b) r.fl).1 ++ 0#16, (macr (-1) (r.rl d) (r.rw a) (r.rw b) r.fl).2)) ∧
  (clear s e 3 = true → ∀ (d : Fin 16) (i : Long) (x : Sfx),
    longNext (.laddi e d i x) s e 3 d (fit 32 (saturates x r.mw) ((r.rl d).toInt + i.toInt) r.fl) ∧
    regsNext (.lcmpi e d i) s e 3 (r.setFl (cmpS 32 (r.rl d) i r.fl))) ∧
  (clear s e 2 = true → ∀ (d a b : Fin 16) (t : Fin 32),
    wordNext (.lnorm e t a) s e 2 t (plain (BitVec.ofNat 16 (norm 32 (r.rl a).toInt)) r.fl) ∧
    wordNext (.rndh e t a) s e 2 t
      ((narrow 16 (r.rl a).toInt 16 2#3 true 0#16 r.fl).1, (narrow 16 (r.rl a).toInt 16 2#3 true 0#16 r.fl).2.1) ∧
    regsNext (.exth e t a) s e 2 (r.setW t ((r.rl a).extractLsb' 16 16)) ∧
    regsNext (.extl e t a) s e 2 (r.setW t ((r.rl a).extractLsb' 0 16)) ∧
    regsNext (.deph e d t) s e 2 (r.setL d (r.rw t ++ 0#16)) ∧
    regsNext (.depl e d t) s e 2 (r.setL d ((r.rw t).signExtend 32)) ∧
    regsNext (.aaddw e d a t) s e 2 (r.setA d (r.ra a + (r.rw t).signExtend 48)) ∧
    regsNext (.aaddl e d a b) s e 2 (r.setA d (r.ra a + (r.rl b).signExtend 48)) ∧
    regsNext (.adiff e d a b) s e 2 (r.setL d ((r.ra a - r.ra b).extractLsb' 0 32)) ∧
    regsNext (.acmp e a b) s e 2 (r.setFl { r.fl with
      c := decide ((r.ra a).toNat ≥ (r.ra b).toNat), z := r.ra a == r.ra b, v := false, n := false })) ∧
  (clear s e 3 = true → ∀ (d : Fin 16) (i : Long),
    regsNext (.aaddi e d i) s e 3 (r.setA d (r.ra d + i.signExtend 48)) ∧
    (∀ a : Fin 16, regsNext (.lea e d (.reg a i)) s e 3 (r.setA d (r.ra a + i.signExtend 48))) ∧
    regsNext (.lea e d (.pc i)) s e 3 (r.setA d ((s.engAt e).pc + i.signExtend 48)))

/-- The rods and the narrowing instructions (R30, R33, R38, R39, R41, R155, R156): accumulation modulo 2^80; a long or a rod narrowed by the shift
and rounding of the form, for every rounding code that is not reserved.
What it says of log 2 and 15 is the model's choice. -/
def Obligations.RodsAndNarrowing : Prop := ∀ (s : State) (e : EngId), let r := s.regsOf e
  (clear s e 2 = true →
  ∀ (k m : Fin 4) (a b : Fin 32) (l v w : Fin 16),
    rodNext (.kmac e k a b) s e 2 k (rodAdd (r.rk k) (2 * (r.rw a).toInt * (r.rw b).toInt) r.fl) ∧
    rodNext (.kmaci e k a b) s e 2 k (rodAdd (r.rk k) ((r.rw a).toInt * (r.rw b).toInt) r.fl) ∧
    rodNext (.kmsu e k a b) s e 2 k (rodAdd (r.rk k) (-(2 * (r.rw a).toInt * (r.rw b).toInt)) r.fl) ∧
    rodNext (.kmsui e k a b) s e 2 k (rodAdd (r.rk k) (-((r.rw a).toInt * (r.rw b).toInt)) r.fl) ∧
    rodNext (.kadd e k (.l l)) s e 2 k (rodAdd (r.rk k) (r.rl l).toInt r.fl) ∧
    rodNext (.kadd e k (.k m)) s e 2 k (rodAdd (r.rk k) (r.rk m).toInt r.fl) ∧
    regsNext (.kclr e k) s e 2 (r.setK k 0#80) ∧
    regsNext (.kmov e k m) s e 2 (r.setK k (r.rk m)) ∧
    regsNext (.kldw e k a) s e 2 (r.setK k ((r.rw a ++ 0#16).signExtend 80)) ∧
    regsNext (.kldl e k l) s e 2 (r.setK k ((r.rl l).signExtend 80)) ∧
    regsNext (.mfe e a k) s e 2 (r.setW a (r.re k)) ∧
    regsNext (.mte e k a) s e 2 (r.setE k (r.rw a)) ∧
    (isReckoner e = true →
      rodNext (.kdot e k v w) s e 2 k
        (rodAdd (r.rk k) (laneSum (shortActive r) fun i => 2 * (r.rv v i).toInt * (r.rv w i).toInt) r.fl) ∧
      rodNext (.vusum e k m) s e 2 k (rodAdd (r.rk k) (laneSum (shortActive r) fun i => (r.ru m i).toInt) r.fl))) ∧
  (clear s e 1 = true → r.mw.rnd.toNat < 6 →
    (∀ (d : Fin 32) (l : Fin 8) (j : Fin 4), regsNext (.lrnd e (.s d l j)) s e 1
      (narrowed (fun r y => r.setW d y) r j r.mw.rnd (narrow 16 (r.rl l).toInt 16 r.mw.rnd (!r.mw.wrap) (r.re j) r.fl))) ∧
    (∀ (d : Fin 32) (k : Fin 4), regsNext (.rndw e (.s d k)) s e 1
      (narrowed (fun r y => r.setW d y) r k r.mw.rnd (narrow 16 (r.rk k).toInt 16 r.mw.rnd (!r.mw.wrap) (r.re k) r.fl))) ∧
    (∀ (d : Fin 16) (k : Fin 4), regsNext (.rndl e (.s d k)) s e 1
      (narrowed (fun r y => r.setL d y) r k r.mw.rnd (narrow 32 (r.rk k).toInt 0 r.mw.rnd (!r.mw.wrap) (r.re k) r.fl)))) ∧
  (clear s e 2 = true → ∀ (sh : Fin 64) (x : Sfx) (rnd : BitVec 3), rnd.toNat < 6 →
    (∀ (d : Fin 32) (l : Fin 16) (j : Fin 4), regsNext (.lrnd e (.l d l sh j x rnd)) s e 2
      (narrowed (fun r y => r.setW d y) r j rnd (narrow 16 (r.rl l).toInt sh rnd (saturates x r.mw) (r.re j) r.fl))) ∧
    (∀ (d : Fin 32) (k : Fin 4), regsNext (.rndw e (.l d k sh x rnd)) s e 2
      (narrowed (fun r y => r.setW d y) r k rnd (narrow 16 (r.rk k).toInt sh rnd (saturates x r.mw) (r.re k) r.fl))) ∧
    (∀ (d : Fin 16) (k : Fin 4), regsNext (.rndl e (.l d k sh x rnd)) s e 2
      (narrowed (fun r y => r.setL d y) r k rnd (narrow 32 (r.rk k).toInt sh rnd (saturates x r.mw) (r.re k) r.fl))))

/-- The ratio steppers (R65, R66, R67): QADV and QADVN advance phase and numerator by k increments, QRATE rescales the numerator to
the new denominator and with a zero one sets V alone, QIDX and QFRC read the phase.
What it says of log 2 is the model's choice. -/
def Obligations.Steppers : Prop := ∀ (s : State) (e : EngId), clear s e 2 = true → let r := s.regsOf e
  ∀ (q : Fin 4) (d : Fin 32) (l a b : Fin 16),
    (let y := (r.rq q).phi.toNat + ((r.rq q).num.toNat + (r.rq q).inc.toNat) / (r.rq q).den.toNat
     regsNext (.qadv e d q) s e 2
      ((r.setQ q { r.rq q with
        phi := BitVec.ofNat 48 y
        num := BitVec.ofNat 32 (((r.rq q).num.toNat + (r.rq q).inc.toNat) % (r.rq q).den.toNat) }).setW d
          (BitVec.ofNat 16 (y / 65536 - (r.rq q).phi.toNat / 65536)))) ∧
    (let n := (r.rq q).num.toNat + (r.rl l).toNat * (r.rq q).inc.toNat
     regsNext (.qadvn e q l) s e 2
      (r.setQ q { r.rq q with
        phi := BitVec.ofNat 48 ((r.rq q).phi.toNat + n / (r.rq q).den.toNat)
        num := BitVec.ofNat 32 (n % (r.rq q).den.toNat) })) ∧
    (r.rl b = 0#32 → regsNext (.qrate e q a b) s e 2 (r.setFl { r.fl with v := true })) ∧
    (r.rl b ≠ 0#32 → r.rl b ≠ (r.rq q).den → regsNext (.qrate e q a b) s e 2
      (r.setQ q { r.rq q with
        num := BitVec.ofNat 32 ((r.rq q).num.toNat * (r.rl b).toNat / (r.rq q).den.toNat), den := r.rl b, inc := r.rl a })) ∧
    (r.rl b ≠ 0#32 → r.rl b = (r.rq q).den → regsNext (.qrate e q a b) s e 2 (r.setQ q { r.rq q with inc := r.rl a })) ∧
    regsNext (.qidx e l q) s e 2 (r.setL l ((r.rq q).phi.extractLsb' 16 32)) ∧
    regsNext (.qfrc e d q) s e 2 (r.setW d ((r.rq q).phi.extractLsb' 0 16))

/-- The lane instructions on a reckoner (R47, R56, R58 to R60, R62, R158): active lanes are written, others kept or zeroed; VV, VSO and VSAT
follow the active lanes; the lane accumulators, narrowing, compares and predicates.
What it says of log 2, 15 and 165 is the model's choice. -/
def Obligations.LaneInstructions : Prop := ∀ (s : State) (e : EngId), isReckoner e = true → let r := s.regsOf e
  (∀ f : VSum, clear s e (vsumLen f) = true →
    laneNext (.vadd e f) s e (vsumLen f) (vsumDst f) (vsumAct f r) (vsumZ f)
      (fun i => laneFit (saturates (vsumSfx f) r.mw) ((vsumArgs f r i).1.toInt + (vsumArgs f r i).2.toInt)) ∧
    laneNext (.vsub e f) s e (vsumLen f) (vsumDst f) (vsumAct f r) (vsumZ f)
      (fun i => laneFit (saturates (vsumSfx f) r.mw) ((vsumArgs f r i).1.toInt - (vsumArgs f r i).2.toInt)) ∧
    laneNext (.vmulr e f) s e (vsumLen f) (vsumDst f) (vsumAct f r) (vsumZ f)
      (fun i => laneFit (saturates (vsumSfx f) r.mw)
        (Int.fdiv ((vsumArgs f r i).1.toInt * (vsumArgs f r i).2.toInt + 16384) 32768))) ∧
  (clear s e 2 = true → ∀ (d a b : Fin 16) (m : LMask) (x : Sfx),
    laneNext (.vmulh e d a b m x) s e 2 d (longActive r m) (zeroing m)
      (fun i => laneFit (saturates x r.mw) (Int.fdiv ((r.rv a i).toInt * (r.rv b i).toInt) 32768)) ∧
    laneNext (.vneg e d a m x) s e 2 d (longActive r m) (zeroing m)
      (fun i => laneQuiet (saturates x r.mw) (-(r.rv a i).toInt)) ∧
    laneNext (.vabs e d a m x) s e 2 d (longActive r m) (zeroing m)
      (fun i => laneQuiet (saturates x r.mw) ((r.rv a i).toInt.natAbs : Int)) ∧
    laneNext (.vmin e d a b m) s e 2 d (longActive r m) (zeroing m)
      (fun i => { val := if (r.rv a i).toInt ≤ (r.rv b i).toInt then r.rv a i else r.rv b i }) ∧
    laneNext (.vmax e d a b m) s e 2 d (longActive r m) (zeroing m)
      (fun i => { val := if (r.rv a i).toInt ≤ (r.rv b i).toInt then r.rv b i else r.rv a i }) ∧
    laneNext (.vand e d a b m) s e 2 d (longActive r m) (zeroing m) (fun i => { val := r.rv a i &&& r.rv b i }) ∧
    laneNext (.vor e d a b m) s e 2 d (longActive r m) (zeroing m) (fun i => { val := r.rv a i ||| r.rv b i }) ∧
    laneNext (.vxor e d a b m) s e 2 d (longActive r m) (zeroing m) (fun i => { val := r.rv a i ^^^ r.rv b i }) ∧
    laneNext (.vsplat e d a m) s e 2 d (longActive r m) (zeroing m) (fun _ => { val := r.rw a }) ∧
    laneNext (.vshl e d a b m x) s e 2 d (longActive r m) (zeroing m)
      (fun i => laneFit (saturates x r.mw) (shiftExact (r.rv a i).toInt (r.rw b).toInt)) ∧
    laneNext (.vshr e d a b m x) s e 2 d (longActive r m) (zeroing m)
      (fun i => laneFit (saturates x r.mw) (shiftExact (r.rv a i).toInt (-(r.rw b).toInt))) ∧
    laneNext (.vshli e d a b m x) s e 2 d (longActive r m) (zeroing m)
      (fun i => laneFit (saturates x r.mw) (shiftExact (r.rv a i).toInt b.val)) ∧
    laneNext (.vshri e d a b m x) s e 2 d (longActive r m) (zeroing m)
      (fun i => laneFit (saturates x r.mw) (shiftExact (r.rv a i).toInt (-(b.val : Int)))) ∧
    (∀ k : Fin 16, laneNext (.vslide e d a b k m) s e 2 d (longActive r m) (zeroing m)
      (fun i => { val := if i + k.val < 16 then r.rv a (i + k.val) else r.rv b (i + k.val - 16) })) ∧
    (∀ p : Fin 4, laneNext (.vsel e d a b p m) s e 2 d (longActive r m) (zeroing m)
      (fun i => { val := if (r.rp p).getLsbD i then r.rv a i else r.rv b i }))) ∧
  (clear s e 1 = true → ∀ d b : Fin 16,
    regsNext (.vmov e (.s d b)) s e 1 (r.putLanes d (shortActive r) false fun i => r.rv b i)) ∧
  (clear s e 2 = true → ∀ (d a : Fin 16) (m : LMask),
    regsNext (.vmov e (.l d a m)) s e 2 (r.putLanes d (longActive r m) (zeroing m) fun i => r.rv a i)) ∧
  (∀ f : VAcc, clear s e (vaccLen f) = true →
    accNext (.vmac e f) s e (vaccLen f) (vaccU f) (vaccAct f r)
      (fun i => (r.ru (vaccU f) i).toInt + 2 * (vaccArgs f r i).1.toInt * (vaccArgs f r i).2.toInt) ∧
    accNext (.vmaci e f) s e (vaccLen f) (vaccU f) (vaccAct f r)
      (fun i => (r.ru (vaccU f) i).toInt + (vaccArgs f r i).1.toInt * (vaccArgs f r i).2.toInt)) ∧
  (clear s e 1 = true →
    (∀ u : Fin 4, accNext (.vclr e (.s u)) s e 1 u (shortActive r) (fun _ => 0)) ∧
    (∀ (d v : Fin 16) (u : Fin 4), r.mw.rnd.toNat < 6 → regsNext (.vrnd e (.s d u v)) s e 1
      (vnarrowed r d u v 16 (shortActive r) false r.mw.rnd (!r.mw.wrap)))) ∧
  (clear s e 2 = true → ∀ (u : Fin 4) (a b : Fin 16) (m : LMask),
    accNext (.vmsu e u a b m) s e 2 u (longActive r m)
      (fun i => (r.ru u i).toInt - 2 * (r.rv a i).toInt * (r.rv b i).toInt) ∧
    accNext (.vmsui e u a b m) s e 2 u (longActive r m) (fun i => (r.ru u i).toInt - (r.rv a i).toInt * (r.rv b i).toInt) ∧
    accNext (.vuadd e u a m) s e 2 u (longActive r m) (fun i => (r.ru u i).toInt + (r.rv a i).toInt) ∧
    accNext (.vusub e u a m) s e 2 u (longActive r m) (fun i => (r.ru u i).toInt - (r.rv a i).toInt) ∧
    accNext (.vclr e (.l u m)) s e 2 u (longActive r m) (fun _ => 0) ∧
    (∀ (d : Fin 16) (sh : Fin 48) (x : Sfx) (rnd : BitVec 3), rnd.toNat < 6 →
      regsNext (.vrnd e (.l d u sh a m x rnd)) s e 2
        (vnarrowed r d u a sh (longActive r m) (zeroing m) rnd (saturates x r.mw))) ∧
    (∀ p : Fin 4,
      predNext (.vcmpeq e p a b m) s e p (longActive r m) (fun i => r.rv a i == r.rv b i) ∧
      predNext (.vcmplt e p a b m) s e p (longActive r m) (fun i => decide ((r.rv a i).toInt < (r.rv b i).toInt)) ∧
      predNext (.vcmple e p a b m) s e p (longActive r m) (fun i => decide ((r.rv a i).toInt ≤ (r.rv b i).toInt)))) ∧
  (clear s e 2 = true → ∀ (d a b : Fin 4) (w : Fin 16),
    regsNext (.pand e d a b) s e 2 (r.setP d (r.rp a &&& r.rp b)) ∧
    regsNext (.por e d a b) s e 2 (r.setP d (r.rp a ||| r.rp b)) ∧
    regsNext (.pxor e d a b) s e 2 (r.setP d (r.rp a ^^^ r.rp b)) ∧
    regsNext (.pnot e d a) s e 2 (r.setP d (~~~(r.rp a))) ∧
    regsNext (.pmovw e d w) s e 2 (r.setP d (r.rw w)) ∧
    regsNext (.vmff e w .vv) s e 2 (r.setW w r.vv) ∧
    regsNext (.vmff e w .vso) s e 2 (r.setW w r.vso) ∧
    regsNext (.vmff e w .vsat) s e 2 (r.setW w r.vsat) ∧
    regsNext (.vmff e w (.p a)) s e 2 (r.setW w (r.rp a)) ∧
    regsNext (.vmtf e .vv w) s e 2 { r with vv := r.rw w } ∧
    regsNext (.vmtf e .vso w) s e 2 { r with vso := r.rw w } ∧
    regsNext (.vmtf e .vsat w) s e 2 { r with vsat := r.rw w })

/-- Pairing (R57, R86), by MOV as the scalar member: on a reckoner it leaves the registers as they stood before it for a lane instruction that follows
it; one that follows a lane instruction and may pair with it reads its operands as they stood before the step, and writes the
present registers.
What it says of log 2 and 14 is the model's choice. -/
def Obligations.Pairing : Prop := ∀ (s : State) (e : EngId) (d a : Fin 32), let x := s.engAt e
  isReckoner e = true → clear (s.modEng e fun x => { x with pair := none }) e 1 = true →
  (x.pair = none → ∃ t p, exec (.mov e d a) s = .next t ∧ (t.engAt e).pair = some p ∧ p.regs = x.regs ∧ p.next = x.pc + 1#48 ∧
    p.lane = false ∧ p.writes = [.w d.val]) ∧
  (∀ p, x.pair = some p → p.next = x.pc → p.lane = true → (p.writes.contains (.w d.val)) = false →
    ∃ t, exec (.mov e d a) s = .next t ∧ (t.engAt e).regs = x.regs.setW d (p.regs.rw a) ∧ (t.engAt e).pc = x.pc + 1#48 ∧
      (t.engAt e).pair = none ∧ sameBut e s t)

/-- MFC and MTC in a mode that may name the register (R126, R127, R152): MFC writes its destination with the control
register, MTC the control register as its access code gives, and nothing else changes.
What it says of log 2 and 21 is the model's choice. -/
def Obligations.ControlMoves : Prop := ∀ (s : State) (e : EngId) (d n : Fin 32), clear s e 1 = true →
  (ctrlWidth n = 16 ∨ ctrlWidth n = 48 ∧ d.val < 16) → let x := s.engAt e
  ((ctrlPriv n false).rank ≤ x.psr.mode.rank →
    regsNext (.mfc e d n) s e 1
      (if ctrlWidth n = 48 then x.regs.setA d (readCtrl48 x n) else x.regs.setW d (readCtrl16 e x n))) ∧
  ((ctrlPriv n true).rank ≤ x.psr.mode.rank → n.val ≠ 21 → n.val ≠ 22 → (x.regs.brc = 0#16 ∨ x.pc ≠ x.regs.bre) →
    engNext (.mtc e n d) s e 1
      (if ctrlWidth n = 48 then writeCtrl48 x n (x.regs.ra d) else writeCtrl16 e x n (x.regs.rw d)))

/-- What a control register reads after a write of it (R116, R125, R127, R146): read-only fields keep their value, reserved bits
read 0, IPEND's bits are cleared by ones, MODE changes in machine mode alone.
What it says of log 21 is the model's choice. -/
def Obligations.ControlRegisterFields : Prop := ∀ (e : EngId) (x : Engine) (w : Word) (a : Addr),
  (∀ n ∈ [5, 6, 7], readCtrl16 e (writeCtrl16 e x n w) n = w) ∧
  readCtrl16 e (writeCtrl16 e x 9 w) 9 = w &&& 0x0FFF#16 ∧
  readCtrl16 e (writeCtrl16 e x 10 w) 10 = x.ctrl.ipend &&& ~~~w ∧
  readCtrl16 e (writeCtrl16 e x 11 w) 11 = w &&& (if isReckoner e then 0x000F#16 else 0x3F09#16) ∧
  readCtrl16 e (writeCtrl16 e x 16 w) 16 = w &&& 0x03FF#16 ∧
  readCtrl16 e (writeCtrl16 e x 24 w) 24 = (w &&& 0x003F#16) ||| (readCtrl16 e x 24 &&& 0x8000#16) ∧
  readCtrl16 e (writeCtrl16 e x 29 w) 29 = w &&& 0x81FF#16 ∧
  (∀ n ∈ [3, 19, 21, 22], readCtrl16 e (writeCtrl16 e x n w) n = readCtrl16 e x n) ∧
  (∀ n ∈ [1, 2, 4, 12, 13, 14, 15, 17, 18, 20], readCtrl48 (writeCtrl48 x n a) n = a) ∧
  readCtrl48 (writeCtrl48 x 8 a) 8 = a &&& 0xFFFFFFFFFF00#48 ∧
  (x.psr.mode ≠ .machine → (writeCtrl16 e x 0 w).psr.mode = x.psr.mode) ∧
  (writeCtrl16 e x 0 w).psr.walk = x.psr.walk ∧ (writeCtrl16 e x 0 w).psr.ie = w.getLsbD 2

/-- The synchronous exceptions an instruction raises by itself (R32, R44, R126, R131, R136, R139, R140, R147), each to its vector
with CAUSE and, where an encoding is at fault, its words in TW0 to TW2: TRAP and BRK; a reserved encoding; a privileged
instruction in user mode; a zero divisor with MW.DZT set; a write of a reserved rounding mode; an RPT too short.
What it says of log 2, 22 and 35 is the model's choice. -/
def Obligations.SynchronousExceptions : Prop := ∀ (s : State) (e : EngId), excOpen s e = true → let x := s.engAt e
  (clear s e 1 = true →
    (∀ n : Fin 16, kernNext (.trap e n) s e 1 (BitVec.ofNat 16 (9 + 256 * n.val)) 0x060) ∧
    kernNext (.brk e) s e 1 0x000A#16 0x060 ∧
    (∀ a : Fin 32, 6 ≤ ((x.regs.rw a).extractLsb' 0 3).toNat →
      kernNextTw (.mtmw e a) s e 1 0x0043#16 0x020 (BitVec.ofNat 16 (9 * 32 + a.val)) 0#16 0#16) ∧
    (x.psr.mode = .user →
      kernNextTw (.wait e) s e 1 0x0045#16 0x060 0x0020#16 0#16 0#16 ∧
      kernNextTw (.pscrub e) s e 1 0x0045#16 0x060 0x01C0#16 0#16 0#16 ∧
      kernNextTw (.reth e) s e 1 0x0045#16 0x060 0x01E0#16 0#16 0#16 ∧
      kernNextTw (.tlbdropall e) s e 1 0x0045#16 0x060 0x02A0#16 0#16 0#16)) ∧
  (∀ w0 w1 w2 : Word, encodingDefined w0 w1 w2 = false → clear s e (wordLen w0) = true →
    kernNextTw (.reservedEncoding e w0 w1 w2) s e (wordLen w0) (BitVec.ofNat 16 (3 + 64 * wordLen w0)) 0x020 w0
      (if 2 ≤ wordLen w0 then w1 else 0#16) (if wordLen w0 = 3 then w2 else 0#16)) ∧
  (clear s e 2 = true → ∀ (d : Fin 16) (a b : Fin 32), x.regs.mw.dzt = true → x.regs.rw b = 0#16 →
    kernNext (.div e d a b) s e 2 0x0006#16 0x060 ∧ kernNext (.divu e d a b) s e 2 0x0006#16 0x060) ∧
  (clear s e 3 = true → ∀ n o : Word, o.toNat < 3 →
    kernNextTw (.rpt e (.imm n) o) s e 3 0x00C4#16 0x060 0xEE00#16 n o)

/-- An exception that TRAP or BRK raises while HL is 1 (R141, R143) is a MACHINE_CHECK with sub-code DOUBLE: PSR is saved whole in PSR_M, the engine goes to machine
mode at the machine-check vector, and SPOT, SNEXT, CAUSE, BADADDR and TW0 to TW2 are not changed. One raised in machine mode (R144) stops
the engine in checkstop with CAUSE_M, PC and registers unchanged; nothing issues on it from then on.
What it says of log 31 is the model's choice. -/
def Obligations.NestedExceptions : Prop :=
  (∀ (s : State) (e : EngId) (n : Fin 16), let x := s.engAt e; let c := x.ctrl
  clear s e 1 = true → x.sb = [] → x.psr.hl = true → x.psr.mode ≠ .machine → ∀ i ∈ [Instr.trap e n, .brk e],
  ∃ t, exec i s = .next t ∧ (t.engAt e).psr = { x.psr with mode := .machine, ie := false, rpe := false, walk := false } ∧
    (t.engAt e).ctrl.psrM = x.psr.toWord ∧ (t.engAt e).ctrl.spotM = x.pc ∧ (t.engAt e).ctrl.snextM = x.pc + 1#48 ∧
    (t.engAt e).ctrl.causeM = BitVec.ofNat 16 (0x18 + 256 * 2) ∧ (t.engAt e).pc = c.vbase + 0x0A0#48 ∧ (t.engAt e).npc = none ∧
    (t.engAt e).regs = x.regs ∧
    { (t.engAt e).ctrl with psrM := 0, spotM := 0, snextM := 0, causeM := 0, badaddrM := 0, ipend := 0 } =
      { c with psrM := 0, spotM := 0, snextM := 0, causeM := 0, badaddrM := 0, ipend := 0 } ∧ sameBut e s t) ∧
  (∀ (s : State) (e : EngId) (n : Fin 16), let x := s.engAt e
  clear s e 1 = true → x.sb = [] → x.psr.mode = .machine → ∀ i ∈ [Instr.trap e n, .brk e],
  ∃ t, exec i s = .next t ∧ (t.engAt e).run = .checkstop ∧ (t.engAt e).ctrl.causeM = x.ctrl.causeM ∧ (t.engAt e).pc = x.pc ∧
    (t.engAt e).regs = x.regs ∧ ∀ j ∈ [Instr.trap e n, .brk e, .nop e, .reth e], exec j t = .next t)

/-- Interrupts (R103, R104, R106, R146): the first line of the fixed order that is pending and enabled is taken, where IE is 1, outside a
handler, machine mode, a slot and stepping, and nothing that goes before an interrupt stands at the point; elsewhere nothing happens.
A command whose condition does not hold leaves the state as it is: the model's choice (log 7).
What it says of log 7, 22, 31 and 173 is the model's choice. -/
def Obligations.Interrupts : Prop := ∀ (s : State) (e : EngId) (b : Bool), let x := s.engAt e
  let line := [9, 11, 10, 1, 0, 13, 8, 12, 2, 3].find? fun l => (x.ctrl.ipend &&& x.ctrl.imask).getLsbD l
  let open_ := canIssue s e && x.psr.ie && !x.psr.hl && decide (x.psr.mode ≠ .machine) && !x.slot && x.stepLeft == 0
  (open_ = false ∨ line = none → exec (.interrupt e b) s = .next s) ∧
  ∀ l, open_ = true → line = some l → x.sb = [] → x.npc = none → pointDivert s e = none →
    kernNext (.interrupt e b) s e (peekLen s e x.pc) (BitVec.ofNat 16 (0x10 + 256 * l)) 0x080

/-- The returns (R90, R101, R142) complete: at an instruction that is in no delay slot and at no active repeat's end, in a mode that may execute
them, every older store is performed and RETH restores PSR from its P fields and re-executes at SPOT, then SNEXT; RETHS goes on as though
the instruction at SPOT had retired, at SNEXT, or at BRE by R101; RETM restores PSR from PSR_M and re-executes at SPOT_M, then SNEXT_M.
What it says of log 16, 20, 22, 35, 172 and 174 is the model's choice. -/
def Obligations.Returns : Prop := ∀ (s : State) (e : EngId), let x := s.engAt e; let u := drainAll s e; let y := u.engAt e; let r := y.regs
  unhindered s e 1 = true → x.slot = false → (x.npc = none ∨ x.npc = some (x.pc + 1#48)) → ¬ (x.repeating = true ∧ x.pc = x.regs.bre) →
  y.haltAsked = false → y.stepLeft = 0 →
  let p : Psr := { mode := if y.psr.pkernel then .kernel else .user, ie := y.psr.pie, hl := false, walk := false, rpe := y.psr.prpe
                   pkernel := false, pie := false, prpe := false }
  let atEnd := y.psr.prpe = true ∧ r.brc ≠ 0#16 ∧ y.ctrl.spot = r.bre
  let v := u.modEng e leaveHandler
  (x.psr.mode ≠ .user →
    (∃ t, exec (.reth e) s = .next t ∧ returnedFrom e u t p x.ctrl.spot (some x.ctrl.snext) r) ∧
    (∃ t, exec (.reths e) s = .next t ∧
      returnedFrom e u t p
        (if atEnd then if 1 < r.brc.toNat then r.brs else y.ctrl.spot + BitVec.ofNat 48 (peekLen v e y.ctrl.spot) else y.ctrl.snext) none
        (if atEnd then { r with brc := if 1 < r.brc.toNat then r.brc - 1#16 else 0#16 } else r))) ∧
  (x.psr.mode = .machine →
    ∃ t, exec (.retm e) s = .next t ∧ returnedFrom e u t (Psr.ofWord y.ctrl.psrM y.psr.mode) x.ctrl.spotM (some x.ctrl.snextM) r)

/-- A budget overrun (R110, R143, R282), at a NOP: its charge would pass the budget, so it does not execute; the meter stops, the engine goes
to the OVERRUN vector with SPOT at it, NEST says whether HL was 1, and IK_EVT.OVERRUN is set.
What it says of log 2 and 25 is the model's choice. -/
def Obligations.BudgetOverrun : Prop := ∀ (s : State) (e : EngId), let x := s.engAt e
  clear (s.modEng e fun x => { x with meter := { x.meter with running := false } }) e 1 = true → x.sb = [] → x.metered = true →
  x.meter.budget.toNat ≤ x.meter.charge.toNat → x.psr.mode ≠ .machine → s.jobCoach e = none → s.jobBe e = none →
  ∃ t, exec (.nop e) s = .next t ∧ (t.engAt e).regs = x.regs ∧ (t.engAt e).ctrl.spot = x.pc ∧ (t.engAt e).ctrl.snext = x.pc + 1#48 ∧
    (t.engAt e).ctrl.cause = BitVec.ofNat 16 (0x0B + (if x.psr.hl then 32 else 0)) ∧ (t.engAt e).pc = x.ctrl.vbase + 0x040#48 ∧
    (t.engAt e).meter = { x.meter with running := false, overrun := true } ∧ (t.engAt e).psr.mode = .kernel ∧
    t.bit 0x0C0001 2 = true ∧ t.mem = s.mem ∧ ∀ g, g ≠ e → t.engAt g = s.engAt g

/-- Translation (R95, R128, R188): a word that is translated comes either from the straight window, in kernel or machine mode, or from a valid TLB
entry of the running ASID or a global one whose page holds the address, which permits the access to this mode; a fetch is
translated with the TLB and the ASID as the last ISYNC, exception or return left them; and while WALK is 1 a word is never a device's.
What it says of log 172 is the model's choice. -/
def Obligations.TranslationPermits : Prop := ∀ (s : State) (e : EngId) (va : Addr) (k : Kind) (p : Phys), let x := s.engAt e
  translateWord s e va k = .ok p →
  p.va = va ∧ (x.psr.walk = true → p.dev = false) ∧
  ((0xC00000000000 ≤ va.toNat ∧ va.toNat < 0xC10000000000 ∧ x.psr.mode ≠ .user ∧ p.pa = canonPa e (va.toNat - 0xC00000000000)) ∨
   (va.toNat < 0xC00000000000 ∧ ∃ j y, (j, y) ∈ (if k = .fetch then x.ftlb else x.tlb) ∧ y.valid = true ∧
      (y.g = true ∨ y.asid = if k = .fetch then x.fasid else x.ctrl.asid) ∧
      va.toNat / 2 ^ y.size.toNat = y.va.toNat / 2 ^ y.size.toNat ∧
      p.pa = canonPa e ((y.pa.toNat - y.pa.toNat % 2 ^ y.size.toNat + va.toNat % 2 ^ y.size.toNat) % 2 ^ 40) ∧
      (x.psr.mode = .user → va.toNat < 0x800000000000 ∧ y.u = true) ∧
      (k = .fetch → y.x = true) ∧ (k = .load ∨ k = .atomic → y.r = true) ∧ (k = .store ∨ k = .atomic → y.wr = true)))

/-- A one-word LD or ST in the forms [an] and [an+] whose translation fails (R140, R147, R188 to R190) takes REFILL or ACCESS with the access type and reason in CAUSE.SUB and
the first failing word's address in BADADDR, and writes no register, not even the one its addressing mode updates; REFILL
sets WALK.
What it says of log 2, 169 and 170 is the model's choice. -/
def Obligations.DataAborts : Prop := ∀ (s : State) (e : EngId) (t : Fin 32) (a : Fin 16) (inc : Bool) (sub : Nat) (bad : Addr), let x := s.engAt e
  clear s e 1 = true → excOpen s e = true → (∃ r, sub = 4 * r + 1 ∧ r < 3 ∨ sub = 4 * r + 2 ∧ r < 4) →
  let aborts := fun (i : Instr) (code : Nat) => ∃ u, exec i s = .next u ∧ (u.engAt e).ctrl.spot = x.pc ∧ (u.engAt e).ctrl.snext = x.pc + 1#48 ∧
    (u.engAt e).ctrl.cause = BitVec.ofNat 16 (code + 256 * sub) ∧ (u.engAt e).ctrl.badaddr = bad ∧
    (u.engAt e).pc = x.ctrl.vbase + (if code = 1 then 0#48 else 0x060#48) ∧ (u.engAt e).psr.mode = .kernel ∧
    (u.engAt e).psr.hl = true ∧ (u.engAt e).psr.walk = decide (code = 1) ∧ (u.engAt e).regs = x.regs ∧ sameBut e s u
  ∀ code, code = 1 ∨ code = 2 →
    (translate s e (accessVas (x.regs.ra a) 1) .load = .error (.kern code sub 0 (some bad) []) → aborts (.ld e t (.sm a inc)) code) ∧
    (translate s e (accessVas (x.regs.ra a) 1) .store = .error (.kern code sub 0 (some bad) []) → aborts (.st e t (.sm a inc)) code)

/-- The loads (R97, R120, R134, R135, R162, R66, R67): the words at the effective address, read by R97's rules, are the destination's
new value, written after the address register's update; nothing else changes. A QSET of a zero denominator sets V alone; one
outside user mode is the kernel's load of a job's stepper. A load that misses the data cache reads its word from memory and leaves the line
there, clean; one of a register of the CSR space reads that register.
What it says of log 2 and 10 is the model's choice. -/
def Obligations.Loads : Prop := ∀ (s : State) (e : EngId), let r := s.regsOf e
  (∀ m ws, clear s e (memLen m) = true →
    (loadsNow s e (memEa m r 1).va 1 = some ws → (memEa m r 1).bad = false → ∀ t : Fin 32,
      regsNext (.ld e t m) s e (memLen m) ((r.setUpd (memEa m r 1).upd).setW t (wordAt ws 0))) ∧
    (loadsNow s e (memEa m r 2).va 2 = some ws → (memEa m r 2).bad = false → ∀ t : Fin 16,
      regsNext (.ldl e t m) s e (memLen m) ((r.setUpd (memEa m r 2).upd).setL t (BitVec.ofNat 32 (wordsAt ws 0 2))))) ∧
  (clear s e 1 = true → ∀ (a : Fin 16) (inc : Bool) (ws : List Word),
    let u := fun z : Nat => r.setUpd (smEa a inc z r).upd
    (loadsNow s e (r.ra a) 3 = some ws → ∀ t : Fin 16,
      regsNext (.lda e t a inc) s e 1 ((u 3).setA t (BitVec.ofNat 48 (wordsAt ws 0 3)))) ∧
    (loadsNow s e (r.ra a) 5 = some ws → ∀ t : Fin 4,
      regsNext (.kld e t a inc) s e 1 ((u 5).setK t (BitVec.ofNat 80 (wordsAt ws 0 5)))) ∧
    (loadsNow s e (r.ra a) 9 = some ws → ∀ t : Fin 4,
      let x := s.engAt e
      engNext (.qset e t a inc) s e 1 (if wordsAt ws 5 2 = 0 then { x with regs := r.setFl { r.fl with v := true } }
        else { x with regs := (u 9).setQ t (Stepper.load ws), qld := if x.psr.mode = .user then x.qld else x.qld ||| (1#4 <<< t.val) })) ∧
    (isReckoner e = true → loadsNow s e (r.ra a) 16 = some ws → ∀ t : Fin 16,
      regsNext (.vld e t a inc) s e 1 ((u 16).setV t fun i => some (wordAt ws i))) ∧
    (isReckoner e = true → loadsNow s e (r.ra a) 48 = some ws → ∀ t : Fin 4,
      regsNext (.uld e t a inc) s e 1 ((u 48).setU t fun i => some (BitVec.ofNat 48 (wordsAt ws (3 * i) 3))))) ∧
  (clear s e 3 = true → ∀ (t : Fin 32) (b : XBase) (ws : List Word), loadsNow s e (xbaseEa b r (s.engAt e).pc) 1 = some ws →
    regsNext (.ldx e t b) s e 3 (r.setW t (wordAt ws 0))) ∧
  ∀ (t : Fin 32) (a : Fin 16) (p : Phys), clear s e 1 = true → (s.engAt e).sb = [] → translate s e (accessVas (r.ra a) 1) .load = .ok [p] →
    let line := lineOf p.pa;
    (p.cached = true → isBad s p.pa = false → (∀ d ∈ (s.engAt e).dcache, d.line ≠ line) → (∀ d, victimOf s e line = some d → d.dirty = false) →
      ∃ u, exec (.ld e t (.sm a false)) s = .next u ∧ (u.engAt e).regs = r.setW t (s.readMem p.pa) ∧ (u.engAt e).pc = (s.engAt e).pc + 1#48 ∧
        (∃ d ∈ (u.engAt e).dcache, d.line = line ∧ d.dirty = false ∧ d.data = memWords s.mem (line * 16) 16) ∧
        (∀ g, g ≠ e → u.engAt g = s.engAt g)) ∧
    (p.cached = false → regionOf p.pa = .csr → let off := p.pa - 0x6000000000; (regGroup off).2 = 1 → trafficCounter off = none →
      regsNext (.ld e t (.sm a false)) s e 1 (r.setW t (if off < 0x400000 ∧ s.regOn off = false then 0#16 else wordPeek s off)))

/-- The stores (R96, R134, R135, R162, R66, R195): the register's words before the instruction enter the store buffer, at the places of the
effective address in runs of at most 16; memory itself is unchanged until they drain, and only the address register is updated.
What it says of log 2 and 10 is the model's choice. -/
def Obligations.Stores : Prop := ∀ (s : State) (e : EngId), let x := s.engAt e; let r := x.regs
  let next := fun i n u es => engNext i s e n { x with regs := r.setUpd u, sb := x.sb ++ es }
  (∀ m es, clear s e (memLen m) = true →
    (∀ t : Fin 32, storesNow s e (memEa m r 1).va 1 [r.rw t] = some es → (memEa m r 1).bad = false →
      next (.st e t m) (memLen m) (memEa m r 1).upd es) ∧
    (∀ t : Fin 16, storesNow s e (memEa m r 2).va 2 (longWords (r.rl t)) = some es → (memEa m r 2).bad = false →
      next (.stl e t m) (memLen m) (memEa m r 2).upd es)) ∧
  (clear s e 1 = true → ∀ (a : Fin 16) (inc : Bool) (es : List SbEntry), let u := fun z : Nat => (smEa a inc z r).upd
    (∀ t : Fin 16, storesNow s e (r.ra a) 3 (toWords (r.ra t).toNat 3) = some es → next (.sta e t a inc) 1 (u 3) es) ∧
    (∀ t : Fin 4, storesNow s e (r.ra a) 5 (toWords (r.rk t).toNat 5) = some es → next (.kst e t a inc) 1 (u 5) es) ∧
    (∀ t : Fin 4, storesNow s e (r.ra a) 9 (r.rq t).words = some es → next (.qst e t a inc) 1 (u 9) es) ∧
    (isReckoner e = true → ∀ t : Fin 16, storesNow s e (r.ra a) 16 (laneWords r t) = some es → next (.vst e t a inc) 1 (u 16) es) ∧
    (isReckoner e = true → ∀ t : Fin 4, storesNow s e (r.ra a) 48 (accWords r t) = some es → next (.ust e t a inc) 1 (u 48) es) ∧
    (x.psr.mode ≠ .user → storesNow s e (r.ra a) 8 (tblGet {} x.tlb x.ctrl.tlbIdx.toNat).words = some es →
      next (.tlbget e a) 1 none es)) ∧
  (clear s e 3 = true → ∀ (t : Fin 32) (b : XBase) (es : List SbEntry), storesNow s e (xbaseEa b r x.pc) 1 [r.rw t] = some es →
    next (.stx e t b) 3 none es)

/-- A drain of the store buffer (R4, R96, R98): the oldest entry's words are performed at their place in memory, word i in bytes 2i and
2i + 1 past its first, and every other byte keeps its value; the entry leaves the buffer and nothing else of the engine changes.
An empty buffer drains nothing. -/
def Obligations.StoreBufferDrains : Prop := ∀ (s : State) (e : EngId),
  ((s.engAt e).sb = [] → exec (.storeDrain e) s = .next s) ∧
  ∀ b bs, (s.engAt e).sb = b :: bs → (regionOf b.pa).isMemory = true → (b.cached = true → b.writeBack = true) →
    ∃ t, exec (.storeDrain e) s = .next t ∧ t.engAt e = ({ s.engAt e with sb := bs } : Engine).wake ∧ (∀ g, g ≠ e → t.engAt g = s.engAt g) ∧
      (∀ i, i < b.words.length → t.readMem (b.pa + i) = b.words.getD i 0#16) ∧
      (∀ a, a < 2 * b.pa ∨ 2 * (b.pa + b.words.length) ≤ a → memByte t.mem a = memByte s.mem a) ∧
      { t with mem := [], bad := [], eng := [] } = { s with mem := [], bad := [], eng := [] }

/-- The atomics (R98, R163, R205), on a word of memory whose place is permitted, with the store buffer empty and the word not
marked uncorrectable: the word is read and written as one, the old value goes to the register, and every other byte of memory
keeps its value. CAS writes only where the word equals the expected one, and says so in Z.
What it says of log 2 is the model's choice. -/
def Obligations.Atomics : Prop := ∀ (s : State) (e : EngId) (a : Fin 16) (p : Phys), let r := s.regsOf e
  clear s e 1 = true → (s.engAt e).sb = [] → translate s e (accessVas (r.ra a) 1) .atomic = .ok [p] → isBad s p.pa = false →
  let old := s.readMem p.pa
  let done := fun i new q => ∃ t, exec i s = .next t ∧ (t.engAt e).regs = q ∧ (t.engAt e).rest = (s.engAt e).rest ∧
    (t.engAt e).pc = (s.engAt e).pc + 1#48 ∧ (t.engAt e).npc = none ∧ (∀ g, g ≠ e → t.engAt g = s.engAt g) ∧
    t.readMem p.pa = new ∧ (∀ b, b < 2 * p.pa ∨ 2 * p.pa + 2 ≤ b → memByte t.mem b = memByte s.mem b) ∧
    { t with mem := [], bad := [], eng := [] } = { s with mem := [], bad := [], eng := [] }
  (∀ t : Fin 32, done (.xadd e t a) (old + r.rw t) (r.setW t old)) ∧
  (∀ t : Fin 32, done (.swap e t a) (r.rw t) (r.setW t old)) ∧
  (∀ t : Fin 16, done (.cas e t a) (if old = r.rw (2 * t) then r.rw (2 * t + 1) else old)
    ((r.setW (2 * t) old).setFl { r.fl with z := decide (old = r.rw (2 * t)) }))

/-- Loads from the host window (R179, R216, R217, R314): a load leaves under HOST_WIN's instance and its engine waits; the completion's
word reaches the register and the load retires; one whose translation is refused, that is poisoned or comes too late raises ACCESS reason
HOST with the address of the word that failed.
A command whose condition does not hold leaves the state as it is: the model's choice (log 7).
What it says of log 7, 28, 158 and 184 is the model's choice. -/
def Obligations.HostWindow : Prop := ∀ (s : State) (e : EngId), let x := s.engAt e
  (clear s e 1 = true → x.sb = [] → ∀ (t : Fin 32) (a : Fin 16) (p : Phys),
    translate s e (accessVas (x.regs.ra a) 1) .load = .ok [p] → regionOf p.pa = .host →
    ∃ s' q, exec (.ld e t (.sm a false)) s = .next s' ∧ (s'.engAt e).run = .hostWait q ∧ q.dst = .w t.val ∧ q.words = [none] ∧
      q.inst = x.ctrl.hinst.toNat ∧ q.vas = [x.regs.ra a] ∧ (s'.engAt e).regs = x.regs ∧ (s'.engAt e).pc = x.pc ∧ s'.mem = s.mem) ∧
  (∀ q, x.run = .hostWait q → x.haltAsked = false → x.stepLeft = 0 → x.npc = none → x.slot = false →
    (∀ (n : Nat) (v : Word), q.dst = .w n → q.words = [none] → x.repeating = false →
      ∃ s', exec (.hostLoadComplete e (.data [v])) s = .next s' ∧ (s'.engAt e).run = .running ∧
        (s'.engAt e).regs = (x.regs.setUpd q.upd).setW n v ∧ (s'.engAt e).pc = x.pc + BitVec.ofNat 48 q.sh.len ∧ s'.mem = s.mem) ∧
    (excOpen s e = true → x.metered = false → s.awaitsLoad e = false →
      let fails := fun (i : Instr) (k : Nat) => ∃ s', exec i s = .next s' ∧ (s'.engAt e).ctrl.spot = x.pc ∧
        (s'.engAt e).ctrl.badaddr = q.vas.getD k (q.vas.headD 0#48) ∧ (s'.engAt e).ctrl.cause = BitVec.ofNat 16 (2 + 256 * 13) ∧
        (s'.engAt e).pc = x.ctrl.vbase + 0x060#48 ∧ (s'.engAt e).psr.mode = .kernel ∧ (s'.engAt e).run = .running ∧ (s'.engAt e).regs = x.regs ∧
        s'.mem = s.mem ∧ ∀ g, g ≠ e → s'.engAt g = s.engAt g
      fails (.hostLoadTimeout e) 0 ∧ fails (.hostLoadComplete e .timedOut) 0 ∧ (∀ k, fails (.hostLoadComplete e (.poisoned k)) k) ∧
        (q.asked = false ∨ s.atsCached q.inst q.pages = false → ∀ k, fails (.hostLoadComplete e (.refused k)) k))) ∧
  ((∀ q, x.run ≠ .hostWait q) → s.awaitsLoad e = false → ∀ v, exec (.hostLoadTimeout e) s = .next s ∧ exec (.hostLoadComplete e v) s = .next s)

/-- Cache maintenance (R202): the line that holds the word at the address, where no store to the data cache is still in the buffer and the
cache's own array has no error in a line to be written back. IFLUSH
leaves it out of the instruction cache, DINV discards it, DCLEAN writes a dirty one back through the store buffer and keeps
it clean, DFLUSH does both.
TLB maintenance (R188, R195): TLBDROPALL leaves no valid entry, TLBDROPASID none of its ASID that is not global, each keeping all else
of every entry; TLBFIND reports the entry that translates an address under ASID; TLBPUT writes entry TLBIDX.INDEX, and no other
valid entry is left that overlaps a valid one it writes.
What it says of log 2, 10 and 172 is the model's choice. -/
def Obligations.CacheAndTlbMaintenance : Prop :=
  (∀ (s : State) (e : EngId) (a : Fin 16) (p : Phys), let x := s.engAt e; let line := lineOf p.pa
  clear s e 1 = true → (x.sb.all fun b => !b.cached && (regionOf b.pa).isMemory) = true → x.sb.length < 8 →
  let back := match x.dcache.find? fun d => d.line == line with
    | some d => if d.dirty then [({ pa := line * 16, words := d.data, writeBack := true, bad := d.bad } : SbEntry)] else []
    | none => []
  let dropped := x.dcache.filter fun d => d.line != line
  (translate s e (accessVas (x.regs.ra a) 1) .maint = .ok [p] →
    (∃ t, exec (.iflush e a) s = .next t ∧ (t.engAt e).regs = x.regs ∧ (t.engAt e).rest = x.rest ∧ sameBut e s t ∧
      ((∀ q, translateWord s e x.pc .fetch = .ok q → lineOf q.pa ≠ line) → ∀ d ∈ (t.engAt e).icache, d.line ≠ line)) ∧
    (x.psr.mode ≠ .user → engNext (.dinv e a) s e 1 { x with dcache := dropped })) ∧
  (translate s e (accessVas (x.regs.ra a) 1) .wback = .ok [p] → x.psr.mode ≠ .user → (∀ d ∈ x.dcache, d.line = line → d.own = []) →
    engNext (.dclean e a) s e 1
      { x with sb := x.sb ++ back
               dcache := if back = [] then x.dcache else x.dcache.map fun c => if c.line == line then { c with dirty := false } else c } ∧
    engNext (.dflush e a) s e 1 { x with sb := x.sb ++ back, dcache := dropped })) ∧
  (∀ (s : State) (e : EngId), let x := s.engAt e
  clear s e 1 = true → x.psr.mode ≠ .user → tblWf {} x.tlb = true →
  let kept := fun (i : Instr) (f : TlbEntry → Bool) => ∃ tlb : Tbl TlbEntry, engNext i s e 1 { x with tlb := tlb } ∧
    ∀ j, tblGet {} tlb j = { tblGet {} x.tlb j with valid := (tblGet {} x.tlb j).valid && f (tblGet {} x.tlb j) }
  kept (.tlbdropall e) (fun _ => false) ∧
  (∀ r : Fin 32, kept (.tlbdropasid e r) fun y => y.g || y.asid != (x.regs.rw r).extractLsb' 0 12) ∧
  (∀ a : Fin 16, engNext (.tlbfind e a) s e 1
    { x with ctrl := match x.tlb.find? fun y => y.2.covers x.ctrl.asid (x.regs.ra a) with
        | some y => { x.ctrl with tlbIdx := BitVec.ofNat 6 y.1, tlbMiss := false }
        | none => { x.ctrl with tlbMiss := true } }) ∧
  (∀ (a : Fin 16) (ws : List Word), loadsNow s e (x.regs.ra a) 8 = some ws → let y := TlbEntry.ofWords ws
    (y.valid = true → 8 ≤ y.size.toNat ∧ y.size.toNat ≤ 44) →
    ∃ tlb : Tbl TlbEntry, engNext (.tlbput e a) s e 1 { x with tlb := tlb } ∧ tblGet {} tlb x.ctrl.tlbIdx.toNat = y ∧
      ∀ j, j < 64 → j ≠ x.ctrl.tlbIdx.toNat →
        tblGet {} tlb j = { tblGet {} x.tlb j with
          valid := (tblGet {} x.tlb j).valid && !(y.valid && (tblGet {} x.tlb j).overlaps y) }))

/-- NOP, WAIT, PSCRUB, ISYNC and FENCE (R92, R98, R100, R166, R169, R204): WAIT goes on at once when an enabled line is pending, its
own retirement's among them, else the engine waits; ISYNC and FENCE perform every older store, in order, before they retire, and
fetch takes up the TLB and the ASID at ISYNC.
What it says of log 2, 26 and 172 is the model's choice. -/
def Obligations.WaitingAndFences : Prop := ∀ (s : State) (e : EngId), clear s e 1 = true → let x := s.engAt e
  regsNext (.nop e) s e 1 x.regs ∧
  (x.psr.mode ≠ .user →
    (∃ t, exec (.wait e) s = .next t ∧ (t.engAt e).regs = x.regs ∧ (t.engAt e).pc = x.pc + 1#48 ∧ (t.engAt e).npc = none ∧
      (t.engAt e).run = (if x.ctrl.ipend &&& x.ctrl.imask = 0#16 ∧ (t.engAt e).ctrl.ipend &&& x.ctrl.imask = 0#16 then .waiting else .running) ∧
      { (t.engAt e).rest with run := .running } = { x.rest with run := .running } ∧ sameBut e s t) ∧
    engNext (.pscrub e) s e 1 { x with btb := [], pctr := [], ghist := 0#12 }) ∧
  ((x.sb.all fun b => (regionOf b.pa).isMemory && (!b.cached || b.writeBack)) = true →
    drainedNext (.isync e) s e { x with ftlb := x.tlb, fasid := x.ctrl.asid } (x.sb.foldl (fun m b => setWords m b.pa b.words) s.mem) ∧
    drainedNext (.fence e) s e x (x.sb.foldl (fun m b => setWords m b.pa b.words) s.mem))

/-- Branches, jumps, calls and returns from calls (R89, R119, R133, R160, R161): the delay slot stands next and the target after it;
a call leaves in a14 the address after its slot; JR, CALLR and RET go to the value before the instruction.
What it says of log 2, 12, 13, 22 and 30 is the model's choice. -/
def Obligations.Branches : Prop := ∀ (s : State) (e : EngId), let x := s.engAt e; let r := x.regs
  let after := fun n : Nat => x.pc + BitVec.ofNat 48 n + BitVec.ofNat 48 (peekLen s e (x.pc + BitVec.ofNat 48 n))
  (clear s e 2 = true → ∀ (annul : Bool) (d : BitVec 21),
    (∀ c : Fin 16, branchNext (.bcond e c annul d) s e 2 (condHolds c r.fl) (x.pc + d.signExtend 48) annul r) ∧
    branchNext (.call e annul d) s e 2 true (x.pc + d.signExtend 48) annul (r.setA 14 (after 2))) ∧
  (clear s e 1 = true →
    (∀ a : Fin 16, branchNext (.jr e a) s e 1 true (r.ra a) false r) ∧
    (∀ a : Fin 16, branchNext (.callr e a) s e 1 true (r.ra a) false (r.setA 14 (after 1))) ∧
    branchNext (.ret e) s e 1 true (r.ra 14) false r)

/-- Delay slots and block repeat (R89, R101, R136, R164), by NOP and MOV: an instruction in a slot is followed by the branch's target, an annulled
one has no effect; RPT loads its loop, and with a count of 0 goes on after it; the instruction at BRE is followed by BRS while BRC
exceeds 1.
What it says of log 2, 18, 22, 166 and 168 is the model's choice. -/
def Obligations.SlotsAndRepeats : Prop := ∀ (s : State) (e : EngId), let x := s.engAt e; let r := x.regs
  let atEnd := x.repeating && x.pc == r.bre
  (unhindered s e 1 = true → x.slot = true → atEnd = false →
    (x.annul = false → placeNext (.nop e) s e (x.npc.getD (x.pc + 1#48)) r ∧
      ∀ d a : Fin 32, placeNext (.mov e d a) s e (x.npc.getD (x.pc + 1#48)) (r.setW d (r.rw a))) ∧
    (x.annul = true → placeNext (.nop e) s e (x.npc.getD (x.pc + 1#48)) r ∧
      ∀ d a : Fin 32, placeNext (.mov e d a) s e (x.npc.getD (x.pc + 1#48)) r)) ∧
  (unhindered s e 1 = true → x.slot = false → x.npc = none → atEnd = true → ∀ d a : Fin 32,
    placeNext (.mov e d a) s e (if 1 < r.brc.toNat then r.brs else x.pc + 1#48)
      { r.setW d (r.rw a) with brc := if 1 < r.brc.toNat then r.brc - 1#16 else 0#16 }) ∧
  (clear s e 3 = true → ∀ (c : RptCount) (o : Word), 3 ≤ o.toNat →
    let bre := x.pc + o.zeroExtend 48
    placeNext (.rpt e c o) s e (if rptCount c r = 0#16 then bre + BitVec.ofNat 48 (peekLen s e bre) else x.pc + 3#48)
      { r with brs := x.pc + 3#48, bre := bre, brc := rptCount c r })

/-- The string instructions (R105, R138, R165): with a count of 0 they retire with their flags; an element moves, stores, compares or
scans one word, advances its addresses and lowers the count by 1, the instruction staying at the point; CMPS retires at a difference and SCANS at
a match.
What it says of log 2, 34 and 167 is the model's choice. -/
def Obligations.Strings : Prop := ∀ (s : State) (e : EngId) (k : Nat), clear s e 1 = true → let x := s.engAt e; let r := x.regs
  let count := fun q : Regs => q.setW 30 (r.rw 30 - 1#16)
  let src := fun q : Regs => q.setA 12 (r.ra 12 + 1#48)
  let dst := fun q : Regs => q.setA 13 (r.ra 13 + 1#48)
  let elem := fun (i : Instr) (q : Regs) (es : List SbEntry) => ∃ t, exec i s = .next t ∧ (t.engAt e).regs = q ∧ (t.engAt e).pc = x.pc ∧
    (t.engAt e).npc = none ∧ (t.engAt e).rest = { x.rest with sb := x.sb ++ es } ∧ sameBut e s t
  (r.rw 30 = 0#16 →
    regsNext (.movs e (k + 1)) s e 1 r ∧ regsNext (.fills e (k + 1)) s e 1 r ∧
    regsNext (.cmps e (k + 1)) s e 1 (r.setFl { r.fl with z := true, c := true }) ∧
    regsNext (.scans e (k + 1)) s e 1 (r.setFl { r.fl with z := false })) ∧
  (r.rw 30 ≠ 0#16 →
    (∀ v es, loadsNow s e (r.ra 12) 1 = some [v] → storesNow s e (r.ra 13) 1 [v] = some es →
      elem (.movs e 1) (count (dst (src r))) es) ∧
    (∀ es, storesNow s e (r.ra 13) 1 [r.rw 31] = some es → elem (.fills e 1) (count (dst r)) es) ∧
    (∀ v w, x.sb = [] → loadsNow s e (r.ra 12) 1 = some [v] → loadsNow s e (r.ra 13) 1 = some [w] →
      if v = w then elem (.cmps e 1) (count (dst (src r))) []
      else regsNext (.cmps e (k + 1)) s e 1 (r.setFl { r.fl with z := false, c := decide (w.toNat ≤ v.toNat) })) ∧
    (∀ v, loadsNow s e (r.ra 12) 1 = some [v] →
      if v = r.rw 31 then regsNext (.scans e (k + 1)) s e 1 (r.setFl { r.fl with z := true })
      else elem (.scans e 1) (count (src r)) []))

/-- A job on an engine (R67, R71, R75, R108, R168): JOBSTART takes the waybill's words for the tracker and its budget for the meter,
which runs on a reckoner, and puts every ratio stepper not loaded for the job at its start value; JOBEND stops the meter and sends a zero post for every block not posted to a contributing entry;
with no job running it has no effect.
What it says of log 2, 27, 28, 162 and 171 is the model's choice. -/
def Obligations.Jobs : Prop := ∀ (s : State) (e : EngId), clear s e 1 = true → (s.engAt e).psr.mode ≠ .user → let x := s.engAt e
  (∀ (a : Fin 16) (ws : List Word), x.meter.running = false → (s.posts.all fun p => !(p.pad && p.src == e.val)) = true →
    loadsNow s e (x.regs.ra a) 48 = some ws →
    ∃ t, exec (.jobstart e a) s = .next t ∧ (t.engAt e).trk = { active := true, waybill := ws, posted := [] } ∧
      (t.engAt e).meter = { x.meter with running := isReckoner e, budget := BitVec.ofNat 32 (wordsAt ws 11 2), charge := 0#32, prev := none } ∧
      (∀ k : Fin 4, (t.engAt e).regs.rq k = if x.qld.getLsbD k then x.regs.rq k else {}) ∧ { (t.engAt e).regs with q := [] } = { x.regs with q := [] } ∧
      (t.engAt e).pc = x.pc + 1#48 ∧ t.mem = s.mem ∧ t.posts = s.posts) ∧
  ((x.trk.active = false → regsNext (.jobend e) s e 1 x.regs) ∧
    (x.trk.active = true → x.sb = [] → s.jobCoach e = none → s.jobBe e = none →
      ∃ t, exec (.jobend e) s = .next t ∧ (t.engAt e).trk.active = false ∧ (t.engAt e).meter.running = false ∧
        (t.engAt e).regs = x.regs ∧ (t.engAt e).pc = x.pc + 1#48 ∧ t.mem = s.mem ∧
        t.posts = s.posts ++ paddingPosts s e.val x.trk))

/-- CBPOST (R71, R171): the next block of a used entry is posted with the tracker's board, block, generation and instance; an unused
entry, or a block beyond the board's length, raises BOARD_FAULT with the entry in CAUSE. CBLD (R74, R171): the totals of a block that is closed for the generation before the job's; zeros before the board's first
generation; BOARD_FAULT for an unused entry or a block beyond the board's length; BOARD_OPEN, which loads nothing and sets OPEN_READ with the
board's number, for a block that is not closed.
What it says of log 2, 23, 24 and 162 is the model's choice. -/
def Obligations.BoardPostsAndLoads : Prop :=
  (∀ (s : State) (e : EngId) (v c : Fin 16), clear s e 1 = true → isReckoner e = true →
  let x := s.engAt e; let b := boardEntry x.trk c; let n := x.trk.count c
  if b.1 = true ∧ n ≤ (s.board b.2.2).len1 then
    ∃ t, exec (.cbpost e v c) s = .next t ∧
      t.posts = s.posts ++ [{ src := e.val, board := b.2.2, blk := n, gen := x.trk.gen, inst := x.trk.inst, period := x.trk.period
                              pad := false, data := laneWords x.regs v }] ∧
      (t.engAt e).trk.count c = n + 1 ∧ (∀ c', c' ≠ c.val → (t.engAt e).trk.count c' = x.trk.count c') ∧
      (t.engAt e).regs = x.regs ∧ (t.engAt e).pc = x.pc + 1#48 ∧ t.mem = s.mem ∧ (∀ g, g ≠ e → t.engAt g = s.engAt g)
  else excOpen s e = true → kernNext (.cbpost e v c) s e 1 (BitVec.ofNat 16 (7 + 256 * c.val)) 0x060) ∧
  (∀ (s : State) (e : EngId) (u : Fin 4) (c j : Fin 16), clear s e 1 = true → isReckoner e = true →
  let x := s.engAt e; let b := boardEntry x.trk c; let d := s.board b.2.2; let blk := (x.regs.rw j).toNat
  let g := x.trk.gen - 1#32; let k := s.block b.2.2 blk g
  let load := regsNext (.cbld e u c j) s e 1
  if b.1 = false ∨ d.len1 < blk then excOpen s e = true → kernNext (.cbld e u c j) s e 1 (BitVec.ofNat 16 (7 + 256 * c.val)) 0x060
  else (genGe g d.firstGen = false → load (x.regs.setU u fun _ => some 0#48)) ∧
    (genGe g d.firstGen = true → d.valid = true → k.tag = g → k.poison = false → k.count = d.expected g →
      load (x.regs.setU u fun i => some (tblGet 0#48 k.tot i))) ∧
    (genGe g d.firstGen = true → ¬ (d.valid = true ∧ k.tag = g ∧ k.poison = false ∧ k.count = d.expected g) → excOpen s e = true →
      ∃ t, exec (.cbld e u c j) s = .next t ∧ kernTaken x (t.engAt e) 1 (BitVec.ofNat 16 (8 + 256 * c.val)) 0x060 ∧
        (t.engAt e).ctrl.tw0 = x.regs.rw j ∧ t.bit 0x140001 1 = true ∧ t.reg 0x140002 = BitVec.ofNat 16 b.2.2 ∧ t.mem = s.mem ∧
        t.blocks = s.blocks ∧ ∀ h, h ≠ e → t.engAt h = s.engAt h))

/-- A post reaches its board (R69, R72, R73, R76): the first of a generation starts from zero, the samples are added exactly
modulo 2^48, and a post beyond the expected count poisons the block.
A command whose condition does not hold leaves the state as it is: the model's choice (log 7).
What it says of log 7, 23, 33 and 164 is the model's choice. -/
def Obligations.PostArrivals : Prop := ∀ (s : State) (n : Nat),
  (s.posts[n]? = none → exec (.postArrive n) s = .next s) ∧
  ∀ p, s.posts[n]? = some p → let d := s.board p.board
    ∃ t, exec (.postArrive n) s = .next t ∧ t.posts = s.posts.eraseIdx n ∧ t.mem = s.mem ∧ t.eng = s.eng ∧
      (d.valid = true → d.owner = p.inst → d.period = p.period →
        let b := if (s.block p.board p.blk p.gen).tag = p.gen then s.block p.board p.blk p.gen else { tag := p.gen }
        let b' := t.block p.board p.blk p.gen
        if b.poison = true ∨ b.count = d.expected p.gen then b' = { b with poison := true }
        else b'.tag = p.gen ∧ b'.poison = false ∧ b'.count = b.count + 1 ∧
          ∀ i, i < 16 → tblGet 0#48 b'.tot i = tblGet 0#48 b.tot i + (wordAt p.data i).signExtend 48) ∧
      (d.valid = false ∨ d.owner ≠ p.inst ∨ d.period ≠ p.period → t.blocks = s.blocks)

/-- A delivery to an engine's input queue (R113, R114, R509): written into the slot at TAIL behind its header, sender and stamp (of
a packet, its arrival stamp), TAIL advanced and line IQ requested; refused with DROP set while the queue is full for its source. MSEND (R115, R170): status 2 when the target does not exist or is out of service, 1 when its queue is full, which sets its DROP,
else 0 with the message in its queue.
What it says of log 2 is the model's choice. -/
def Obligations.InputQueues : Prop :=
  (∀ (s : State) (e : EngId) (src : Fin 4) (sender : Word) (d : Delivery), let data := d.words
  engPowered s e = true → data.length ≤ 120 → let x := s.engAt e; let b := slotBase e x.iqTail.toNat
  ∃ t, exec (.queueDelivery e src sender d) s = .next t ∧ (t.engAt e).regs = x.regs ∧ (t.engAt e).pc = x.pc ∧
    (∀ g, g ≠ e → t.engAt g = s.engAt g) ∧
    if queueFull s e src = true then t.mem = s.mem ∧ (t.engAt e).iqDrop = true ∧ (t.engAt e).iqTail = x.iqTail
    else t.readMem b = BitVec.ofNat 16 (0x8000 + src.val * 4096 + data.length) ∧ t.readMem (b + 1) = sender ∧
      memWords t.mem (b + 8) data.length = data ∧ (src = 2 → memWords t.mem (b + 2) 6 = toWords (d.arrival % 2 ^ 96) 6) ∧
      (t.engAt e).iqTail = x.iqTail + 1#5 ∧ (t.engAt e).ctrl.ipend.getLsbD 0 = true ∧
      ∀ a, a < 2 * b ∨ 2 * (b + 8 + data.length) ≤ a → memByte t.mem a = memByte s.mem a) ∧
  (∀ (s : State) (e : EngId) (d : Fin 32) (a : Fin 16) (ws : List Word), let x := s.engAt e
  clear s e 1 = true → x.psr.mode ≠ .user → x.sb = [] → loadsNow s e (x.regs.ra a) (fld (x.regs.rw d) 8 4 + 1) = some ws →
  match msendTarget (x.regs.rw d) with
  | none => regsNext (.msend e d a) s e 1 (x.regs.setW d 2#16)
  | some g =>
    if engInService s g = false then regsNext (.msend e d a) s e 1 (x.regs.setW d 2#16)
    else ∃ t, exec (.msend e d a) s = .next t ∧ (t.engAt e).pc = x.pc + 1#48 ∧
      let full := queueFull s g (if isReckoner e then 0 else 1)
      (t.engAt e).regs = x.regs.setW d (if full then 1#16 else 0#16) ∧
      (if full then t.mem = s.mem ∧ (t.engAt g).iqDrop = true
        else memWords t.mem (slotBase g (s.engAt g).iqTail.toNat + 8) ws.length = ws ∧
          (t.engAt g).iqTail = (s.engAt g).iqTail + 1#5) ∧
      ∀ h, h ≠ e → h ≠ g → t.engAt h = s.engAt h)

/-- Device time (R319, R320, R323, R327): an edge adds the increment in force, its numerator carried in the residue, or takes the time NP_SET
committed; with the TCXO lost every edge of the internal reference adds the nominal increment; edges that resume leave
time as it stands.
What it says of log 42 and 44 is the model's choice. -/
def Obligations.DeviceTime : Prop := ∀ (s : State) (pps : Bool), let lost := s.bit 0x010018 10
  let inc := s.clk.incNext.getD s.clk.inc
  let r := if inc.2.2 = s.clk.inc.2.2 then s.clk.resid else s.clk.resid * inc.2.2 / s.clk.inc.2.2
  (lost = false → answers (.tcxoEdge pps) s fun t => t.clk.inc = inc ∧ t.clk.incNext = none ∧ t.clk.setNext = none ∧ t.mem = s.mem ∧
    match s.clk.setNext with
    | some v => t.time = v ∧ t.clk.resid = 0
    | none => t.time = (s.time + inc.1 + (r + inc.2.1) / inc.2.2) % 2 ^ 96 ∧ t.clk.resid = (r + inc.2.1) % inc.2.2) ∧
  (lost = true → answers (.tcxoEdge pps) s fun t => t.time = s.time ∧ t.clk.inc = s.clk.inc ∧ t.clk.resid = s.clk.resid ∧ t.mem = s.mem) ∧
  (lost = true → s.clk.setNext = none → answers (.tcxoLost ⟨1, pps⟩) s fun t =>
    t.time = (s.time + 7330077 + (s.clk.resid + 4861) / 9375) % 2 ^ 96 ∧ t.clk.resid = (s.clk.resid + 4861) % 9375 ∧ t.clk.inc = s.clk.inc) ∧
  (lost = false → answers (.tcxoLost ⟨0, pps⟩) s fun t => t.bit 0x010018 10 = true ∧ t.bit 0x010019 7 = true ∧ t.time = s.time) ∧
  answers .tcxoResume s fun t => t.bit 0x010018 10 = false ∧ t.time = s.time ∧ coreKept s t

/-- The commits of time registers by an agent that may write them (R290, R320, R323, R335, R342, R344): the words it holds and the last one
written take effect together, or the commit is ignored where its rule says so.
What it says of log 39 and 40 is the model's choice. -/
def Obligations.TimeCommits : Prop := ∀ (s : State) (ag : Agent) (w : Word),
  (mayWrite ag 0x01000D = true → let ws := s.groupWords ag 0x010008 6 w
    answers (.npSetCommit ag w) s fun t => t.time = s.time ∧ t.mem = s.mem ∧
      if s.timeInUse = true ∨ s.slaved = true then t.clk.setNext = s.clk.setNext ∧ t.bit 0x010019 4 = true
      else t.clk.setNext = some (wordsAt ws 0 6)) ∧
  (mayWrite ag 0x010015 = true → let ws := s.groupWords ag 0x010010 6 w
    answers (.npIncCommit ag w) s fun t => t.time = s.time ∧ t.clk.inc = s.clk.inc ∧ coreKeptFor ag s t ∧
      if incOk (wordsAt ws 0 2) (wordsAt ws 2 2) (wordsAt ws 4 2) = true then
        t.clk.incNext = some (wordsAt ws 0 2, wordsAt ws 2 2, wordsAt ws 4 2)
      else t.clk.incNext = s.clk.incNext ∧ t.bit 0x010019 5 = true) ∧
  (mayWrite ag 0x010033 = true → answers (.gstartCommit ag w) s fun t =>
    t.clk.gsArmed = true ∧ t.regs 0x010030 4 = ofWords (s.groupWords ag 0x010030 4 w) ∧ coreKeptFor ag s t) ∧
  (∀ n : Fin 16, mayWrite ag (almBase n) = true → let b := almBase n
    answers (.alarmCommit ag n false w) s (fun t => t.reg (b + 10) = (w &&& 0xF800#16) ||| (s.reg (b + 10) &&& 0x07FF#16)) ∧
    (¬ (s.bit (b + 10) 15 = true ∧ s.bit (b + 10) 14 = true) →
      answers (.alarmCommit ag n true w) s fun t => t.regs b 6 = ofWords (s.groupWords ag b 6 w) ∧ coreKeptFor ag s t)) ∧
  (∀ (f : Fin 24) (k : Fin 8), mayWrite ag (tmrBase f k) = true → frameOn s f = true → s.clk.fired = [] → let b := tmrBase f k
    (s.bit b 7 = false → answers (.timerCompareCommit ag f k true w) s fun t =>
      t.regs (b + 2) 4 = ofWords (s.groupWords ag (b + 2) 4 w) ∧ coreKeptFor ag s t) ∧
    (w.getLsbD 7 = false → answers (.timerCompareCommit ag f k false w) s fun t => coreKeptFor ag s t ∧
      t.reg b = (if fld w 12 2 = 3 then s.reg b else w &&& 0xFFFC#16)) ∧
    answers (.timerCountCommit ag f k w) s fun t => coreKeptFor ag s t ∧
      t.regs (b + 10) 4 = (if s.bit b 15 = true ∨ fld (s.reg b) 12 2 = 0 then s.regs (b + 10) 4
        else ofWords (s.groupWords ag (b + 10) 4 w)))

/-- What a match, a trip or a capture does (R333, R336, R338, R339, R342 to R344): at the edge where a comparator matches, MATCHED, or MISSED
where it was still set, and the repeat adds the interval to the compare value; where none matches at the next edge its command does
nothing.
A command whose condition does not hold leaves the state as it is: the model's choice (log 7).
What it says of log 7, 8, 41 and 43 is the model's choice. -/
def Obligations.ComparatorsAct : Prop := ∀ s : State,
  (∀ n : Fin 16, let b := almBase n
    (s.alarmNext n = false → answers (.alarmMatch n) s fun t => t = s) ∧
    (s.alarmNext n = true → answers (.alarmMatch n) s fun t => t.time = s.edgeTimes.2 ∧ t.bit (b + 11) 15 = true ∧
      (s.bit (b + 11) 15 = true → t.bit (b + 11) 14 = true) ∧ t.mem = s.mem ∧
      t.regs b 6 = (if s.bit (b + 10) 13 = true then (s.regs b 6 + s.regs (b + 6) 4) % 2 ^ 96 else s.regs b 6))) ∧
  (∀ (f : Fin 24) (k : Fin 8), let b := tmrBase f k; let i := f.val * 8 + k.val
    (s.timerFires f k = false → answers (.timerMatch f k) s fun t => t = s) ∧
    (s.timerFires f k = true → s.jobCoach (reckoner i) = none → answers (.timerMatch f k) s fun t => t.time = s.edgeTimes.2 ∧ t.bit (b + 1) 15 = true ∧
      (s.bit (b + 1) 15 = true → t.bit (b + 1) 14 = true) ∧ t.bit b 15 = !s.bit b 5 ∧ t.mem = s.mem ∧
      (s.bit b 4 = true → (t.engAt (reckoner i)).ctrl.ipend.getLsbD 1 = true) ∧
      t.regs (b + 2) 4 = (if s.bit b 6 = true then (s.regs (b + 2) 4 + s.regs (b + 6) 4) % 2 ^ 64 else s.regs (b + 2) 4))) ∧
  (s.startNext = false → answers .globalStart s fun t => t = s) ∧
  (s.startNext = true → answers .globalStart s fun t => t.time = s.edgeTimes.2 ∧ t.clk.gsArmed = false ∧ t.mem = s.mem ∧
    ∀ (f : Fin 24) (k : Fin 8), let b := tmrBase f k
      if frameOn s f = true ∧ s.bit b 14 = true ∧ s.bit b 15 = false then t.bit b 15 = true ∧ t.bit b 14 = false
      else t.bit b 14 = s.bit b 14 ∧ (s.bit b 15 = false → t.bit b 15 = false)) ∧
  (∀ (n : Fin 4) (v : Int), let b := anaBase n
    answers (.analogueTrip n v) s (fun t => (2 ≤ n.val ∨ s.regOn 0x020000 = false → t.mem = s.mem) ∧
      if s.anaEnters n v = true then t.bit (b + 2) 15 = true ∧ t.bit (b + 2) 14 = true else t = s) ∧
    answers (.analogueConditionLeft n v) s fun t =>
      if s.anaLeaves n v = true then t = s.setReg (b + 2) (s.reg (b + 2) &&& 0x7FFF#16) else t = s) ∧
  (∀ (ag : Agent) (f : Fin 24) (k : Fin 8) (w : Word), mayWrite ag (tmrBase f k) = true → frameOn s f = true → s.clk.fired = [] → fld w 12 2 ≠ 3 →
    w.getLsbD 7 = false → answers (.capnow ag f k w) s fun t =>
      t.regs (tmrBase f k + 14) 4 = s.regs (tmrBase f k + 10) 4 ∧ t.bit (tmrBase f k + 1) 13 = true ∧ coreKeptFor ag s t) ∧
  (∀ ag : Agent, (ag = .host → s.fn.perstLow = false) →
    answers (.captureRead ag none) s (fun t => t.bit 0x010026 15 = false ∧ t.regs 0x010020 6 = s.regs 0x010020 6 ∧ coreKept s t ∧
      (ag = .host → t.out = .read [s.reg 0x010020] :: s.out)) ∧
    ∀ (f : Fin 24) (k : Fin 8), frameOn s f = true → answers (.captureRead ag (some (f, k))) s fun t =>
      t.bit (tmrBase f k + 1) 13 = false ∧ t.regs (tmrBase f k + 14) 4 = s.regs (tmrBase f k + 14) 4 ∧ coreKept s t ∧
      (ag = .host → t.out = .read [s.reg (tmrBase f k + 14)] :: s.out))

/-- The PPS pins (R332, R334, R345): a rise of PPS_IN after less than 50 ns of low level is no edge and sets LEVEL alone; one that counts
completes with NP_PPS_CAP at the interpolated time of the edge, before the next edge's count, CAPTURED and LEVEL set, and OVERRUN as well
where CAPTURED was still set. PPS_OUT rises at its instant while EN = 1 and SET = 1, with the WIDTH of that moment; it falls WIDTH ms after
the instant it rose.
A command whose condition does not hold leaves the state as it is: the model's choice (log 7).
What it says of log 7, 38 and 42 is the model's choice. -/
def Obligations.PpsPins : Prop := ∀ s : State,
  (∀ ns, ns < 50 → exec (.ppsCapture ns) s = .next (s.setBit 0x010026 13)) ∧
  (∀ ns, 50 ≤ ns → ∃ t, exec (.ppsCapture ns) s = .next t ∧ t.regs 0x010020 6 = s.readTime.1 ∧
    (s.clk.phi < s.incUnits → ∃ d, s.clk.phi ≤ d ∧ d < s.incUnits ∧ t.regs 0x010020 6 = (s.time + d) % 2 ^ 96) ∧
    t.bit 0x010026 15 = true ∧ t.bit 0x010026 13 = true ∧ (s.bit 0x010026 15 = true → t.bit 0x010026 14 = true) ∧
    t.time = s.time ∧ coreKept s t) ∧
  (s.bit 0x010027 15 = true → s.bit 0x010018 15 = true → s.clk.ppsOut = false → s.ppsNext < s.time + s.incUnits →
    exec .ppsOutRise s = .next { s with clk := { s.clk with ppsOut := true, ppsAt := s.ppsNext % 2 ^ 96, ppsWidth := fld (s.reg 0x010027) 0 10 } }) ∧
  (s.time ≤ s.ppsNext ∧ ((s.ppsNext : Int) + s.ppsOfs) % 2 ^ 48 = 0 ∧ s.ppsNext < s.time + 2 ^ 48) ∧
  (s.bit 0x010027 15 = false ∨ s.bit 0x010018 15 = false ∨ s.clk.ppsOut = true ∨ s.time + s.incUnits ≤ s.ppsNext →
    exec .ppsOutRise s = .next s) ∧
  (let due := s.clk.ppsOut = true ∧ usPassed s.clk.ppsAt (s.time + s.incUnits - 1) (1000 * s.clk.ppsWidth) = true;
    (due → exec .ppsOutFall s = .next { s with clk := { s.clk with ppsOut := false } }) ∧ (¬ due → exec .ppsOutFall s = .next s))

/-- Loss of supply, Night and wake (R404, R414, R417, R418, R420, R493, R494): at 115 °C or below the always-on threshold everything outside the
always-on domain is lost and VCORE_EN goes low, but in Night a brown-out loses the enabled slots and Night goes on; in Night the slots the
prediction has no room for are released; a wake goes stage by stage, from a core supply above the image's threshold to the KICK of every active
pair, a stage that takes too long ends it, and it is tried once more after 100 ms.
A command whose condition does not hold leaves the state as it is: the model's choice (log 7).
What it says of log 7, 8, 46, 65, 83, 200 and 211 is the model's choice. -/
def Obligations.SupplyAndWake : Prop := ∀ s : State,
  (∀ v : Int, (v < 460 → answers (.thermalTrip v) s fun t => t = s) ∧
    (460 ≤ v → answers (.thermalTrip v) s fun t => t.bit 0x010400 0 = true ∧ t.pw.vcoreEn = false ∧ t.pw.wake = .off ∧ t.time = s.time ∧
      (s.pw.vcoreEn = true → coreGone t ∧ t.tw.gateClosed = true ∧ t.tw.hbStopped = true))) ∧
  (answers .aonBrownout s fun t => t.bit 0x010400 2 = true ∧ t.tw.gateClosed = true ∧ t.time = s.time ∧
    (s.pw.wake = .awake ∨ s.pw.wake = .off → coreGone t ∧ t.pw.vcoreEn = false ∧ t.pw.wake = .off) ∧
    (s.pw.wake ≠ .awake → s.pw.wake ≠ .off → t.pw.wake = .night ∧ (∀ k ∈ s.slotsOn, t.bit 0x010404 k = true) ∧
      if s.pw.wake = .night then t.mem = s.mem ∧ t.pw.vcoreEn = s.pw.vcoreEn else t.eng = [] ∧ t.pw.vcoreEn = false)) ∧
  (answers .aonPowerUp s fun t => coreGone t ∧ t.time = State.reset.time ∧ t.csr = State.reset.csr ∧ t.cf.flash = s.cf.flash ∧
    t.jr.nor = s.jr.nor ∧ t.cf.svn = s.cf.svn ∧ t.pw.vcoreEn = false) ∧
  (∀ v : Int, let due := s.pw.wake = .night ∧ usPassed s.pw.retAt s.time 10000 = true;
    (¬ due → answers (.retentionCheck v) s fun t => t = s) ∧
    (due → answers (.retentionCheck v) s fun t => t.pw.sensor3 = some v ∧ (t.drawFor v ≤ 20000 ∨ t.slotsOn = []) ∧
      (∀ k ∈ t.slotsOn, k ∈ s.slotsOn) ∧ ∀ k ∈ s.slotsOn, k ∉ t.slotsOn → t.bit 0x010404 k = true ∧ t.bit 0x010400 1 = true)) ∧
  (∀ x : WakeReady, let n := x.stage.val;
    (s.pw.wake ≠ .stage n ∨ s.wakeReady x = false → answers (.wakeStageReady x) s fun t => t = s) ∧
    (s.pw.wake = .stage n → (n = 0 → s.imageField s.cf.nightSlot 1 17 < x.core) → (n = 3 → s.pw.wakeKicks = []) →
      answers (.wakeStageReady x) s fun t => t.time = s.time ∧ t.pw.wakeAt = s.time ∧
        (n = 2 → x.dramHeld = false → t.pw.dramKept = false) ∧
        if n = 3 then t.pw.wake = .awake ∧ t.bit 0x010401 15 = true ∧ t.cf.startCause = 2 ∧ t.stage = 2 else t.pw.wake = .stage (n + 1))) ∧
  (∀ n : Fin 4,
    (s.pw.wake ≠ .stage n.val → answers (.wakeStageTimeout n) s fun t => t = s) ∧
    (s.pw.wake = .stage n.val →
      (usPassed s.pw.wakeAt s.time (wakeLimit n.val) = true → answers (.wakeStageTimeout n) s fun t =>
        fld (t.reg 0x010401) 12 2 = n.val ∧ t.eng = [] ∧ t.frames = [] ∧ t.pw.vcoreEn = false ∧
        (2 ≤ n.val → ∀ k ∈ s.slotsOn, t.bit 0x010404 k = true) ∧
        if s.bit 0x010401 7 = true then t.pw.wake = .night ∧ t.bit 0x010401 14 = true else t.pw.wake = .retry s.time))) ∧
  (∀ at_, s.pw.wake = .retry at_ → answers .wakeRetry s fun t =>
    if usPassed at_ s.time 100000 = true then t.pw.wake = .stage 0 ∧ t.pw.wakeAt = s.time ∧ t.pw.vcoreEn = true ∧ t.bit 0x010401 7 = true
    else t = s)

/-- Start-up (R322, R430 to R433, R435, R437, R446): SYS_RESET_N low loses everything but the always-on domain, its release begins stage 1;
each stage ends in the next, a flash that cannot be read or two slots that do not verify in recovery, with FALLBACK where the first did not;
stage 5 zero-fills device DRAM and shows the channels, stage 7 powers the frames up and waits for them; a trial start not ready within 3 s
starts anew.
A command whose condition does not hold leaves the state as it is: the model's choice (log 7).
What it says of log 7, 46, 48, 69, 83, 87, 155, 176 and 200 is the model's choice. -/
def Obligations.StartUp : Prop := ∀ s : State,
  (∀ strap, (s.pw.resetLow = false → answers (.sysResetN strap) s fun t => t = s) ∧
    (s.pw.resetLow = true → answers (.sysResetN strap) s fun t => coreGone t ∧ t.pw.resetLow = false ∧ t.bit 0x010401 15 = false ∧
      t.tw.fenced = false ∧ t.time = s.time ∧ t.pw.vcoreEn = s.pw.vcoreEn ∧
      if s.pw.vcoreEn = true then t.stage = 1 ∧ t.pw.wake = .awake ∧ t.bit 0x0F0000 6 = strap else t.stage = 0 ∧ t.pw.wake = .off)) ∧
  ((s.pw.resetLow = true → answers .sysResetNFall s fun t => t = s) ∧
    (s.pw.resetLow = false → answers .sysResetNFall s fun t => coreGone t ∧ t.pw.resetLow = true ∧ t.pw.wake = .off ∧ t.pw.vcoreEn = true ∧
      t.cf.startCause = 1 ∧ t.time = s.time)) ∧
  (∀ x : StartIn,
    (s.stage = 1 → answers (.startupStage x) s fun t => t.stage = (if x.flashOk = true then 2 else 15) ∧
      (x.flashOk = false → t.bit 0x030000 13 = true)) ∧
    (s.stage = 2 → s.bit 0x030000 13 = false → s.cf.startCause = 2 → answers (.startupStage x) s fun t => t.stage = 3 ∧ t.cf = s.cf) ∧
    (s.stage = 2 → s.bit 0x030000 13 = false → s.cf.startCause ≠ 2 → let k := s.chooseSlot.1; let ok := fun j => s.chooseSlot.2.verifySlot j;
      answers (.startupStage x) s fun t => k ≤ 1 ∧ fld (t.reg 0x030000) 9 1 = (if ok k = true then k else 1 - k) ∧
        (ok k = true → t.stage = 3 ∧ t.bit 0x030000 11 = s.bit 0x030000 11) ∧
        (ok k = false → t.bit 0x030000 11 = true ∧
          if ok (1 - k) = true then t.stage = 3 ∧ t.bit 0x030000 13 = false else t.stage = 15 ∧ t.bit 0x030000 13 = true)) ∧
    (∀ k, s.imageOk k = false → s.verifySlot k = false) ∧
    (∀ n, s.stage = n → n = 3 ∨ n = 4 ∨ n = 5 ∨ n = 6 → answers (.startupStage x) s fun t => t.stage = n + 1 ∧
      (n = 4 → t.bit 0x030000 14 = (s.bit 0x030000 14 || !s.fn.perstLow)) ∧
      (n = 5 → ∀ c < 8, t.reg (0x100000 + c * 0x1000) = channelInfo x (s.params 16) c) ∧
      (n = 5 → ¬ (s.cf.startCause = 2 ∧ s.pw.dramKept = true) → ∀ c ∈ t.mem, 0x8000000000 ≤ c.1)) ∧
    (s.stage = 7 → s.cf.startCause = 2 → answers (.startupStage x) s fun t => t.stage = 8) ∧
    (s.stage = 7 → s.cf.startCause ≠ 2 → let begun := ∃ f < 24, (s.frameAt f).poweringUp = true ∨ frameOn s f = true ∨ (s.frameAt f).st = 3;
      let busy := ∃ f < 24, (s.frameAt f).poweringUp = true;
      answers (.startupStage x) s fun t => (¬ begun → t.stage = 7 ∧ ∀ f < 24, (s.frameAt f).st = 2 → (t.frameAt f).poweringUp = true) ∧
        (begun → busy → t = s) ∧ (begun → ¬ busy → t.stage = 8 ∧ t.frames = s.frames)) ∧
    (s.stage = 8 → answers (.startupStage x) s fun t => t.bit 0x030000 15 = true ∧
      (s.bit 0x030000 15 = false → t.bit 0x030001 0 = true ∧ t.ik.round = roundOf t.time ∧ t.ty.minute = minuteOf t.time)) ∧
    (s.stage = 0 ∨ 9 ≤ s.stage → answers (.startupStage x) s fun t => t = s)) ∧
  (let due := s.bit 0x030000 12 = true ∧ s.bit 0x030000 15 = false ∧ usPassed s.cf.startAt s.time 3000000 = true;
    (¬ due → answers .trialWatchdog s fun t => t = s) ∧
    (due → answers .trialWatchdog s fun t => coreGone t ∧ t.stage = 1 ∧ t.cf.startCause = 3)) ∧
  (answers (.norWrite true) s (fun t => if s.backlog = 0 ∨ s.bit 0x038000 15 = false then t = s else
      ∀ e, s.jr.jring[s.backlog - 1]? = some e → e ≠ [] →
        tblGet [] t.jr.nor s.jr.norWp = e ∧ t.backlog + 1 = s.backlog ∧ t.regs 0x038004 2 = entrySeq e ∧ t.jr.jring = s.jr.jring) ∧
    answers (.norWrite false) s fun t => if s.backlog = 0 ∨ s.bit 0x038000 15 = false then t = s else
      t.bit 0x038001 1 = true ∧ t.jr = s.jr) ∧
  (answers .eraseComplete s fun t => t.cf.erasing = none ∧
    (s.cf.erasing ≠ none → s.cf.eraseSame = false → (∃ b, (s.instAt 0).busy = some b ∧ b.wait = .erase) → t.staged = 3) ∧
    (s.cf.erasing ≠ none → ∀ u ∈ t.cf.flash, u.1 / 65536 ≠ 1 - s.bootSlot)) ∧
  (∀ kind index, (s.cf.acts.find? (fun a => decide (a.piece.kind = kind) && decide (a.piece.index = index)) = none →
      answers (.activation kind index) s fun t => t = s) ∧
    ∀ a, s.cf.acts.find? (fun a => decide (a.piece.kind = kind) && decide (a.piece.index = index)) = some a →
      (s.actDue a = false → answers (.activation kind index) s fun t => t = s) ∧
      (s.actDue a = true → (∀ b ∈ s.cf.acts, b.taken = true ∨ s.actDue b = false ∨ kind ≤ b.piece.kind) →
        answers (.activation kind index) s fun t => (a.taken = false → t.bit 0x030001 2 = true) ∧
          ∀ b ∈ t.cf.acts, b.piece.kind = kind → b.piece.index = index → b.taken = true))

/-- Fencing and checking (R386, R455, R456): a KICK of an active pair while it counts keeps the heartbeat, and opens the egress
gate unless the device was fenced; 20 µs without one stops the heartbeat, closes the gate and sends FENCED; a self-test shows the
compare points that stay silent.
A command whose condition does not hold leaves the state as it is: the model's choice (log 7).
What it says of log 7, 8, 47, 57 and 58 is the model's choice. -/
def Obligations.FencingAndChecking : Prop := ∀ s : State,
  (let due := s.tw.hbStopped = false ∧ usPassed s.tw.kickAt (s.time + s.incUnits) 20 = true;
    (¬ due → answers .fenceTimeout s fun t => t = s) ∧
    (due → answers .fenceTimeout s fun t => t.tw.hbStopped = true ∧ t.tw.gateClosed = true ∧ t.tw.fenced = true ∧ coreKept s t ∧
      ∃ n, t.out = (if s.linkUp = true ∧ s.tw.gateClosed = false then .link 11 n 0 [] :: s.out else s.out))) ∧
  (∀ (p : Fin 4) (w : Word), ((s.engAt (stewardPair p)).run = .halted → answers (.kick p w) s fun t => t = s) ∧
    ((s.engAt (stewardPair p)).run ≠ .halted → s.regOn 0x0F0001 = true → answers (.kick p w) s fun t =>
      t.bit 0x0F0001 15 = w.getLsbD 15 ∧ t.mem = s.mem ∧
      if s.tw.kickOff = false ∧ s.pw.scanTaken = false ∧ s.pairActive p = true then
        t.tw.hbStopped = false ∧ t.tw.gateClosed = s.tw.fenced ∧ t.tw.kickAt = t.now
      else t.tw = s.tw)) ∧
  (∀ (ag : Agent) (m : Word) (d : Bool), mayWrite ag 0x380001 = true → s.regOn 0x380001 = true → answers (.selftest ag m d) s fun t =>
    t.mem = s.mem ∧
    if s.bit 0x380000 13 = true then t.reg 0x380002 = s.reg 0x380002
    else t.reg 0x380002 = (s.reg 0x380002 &&& ~~~s.pairMask) ||| (m &&& s.pairMask) ∧ t.bit 0x380000 14 = d ∧
      (m &&& s.pairMask &&& s.activeMask ≠ 0#16 ∨ d = true → t.bit 0x380000 15 = true))

/-- Access to the registers (R7, R9, R289, R290, R359): a read answers every register it covers, and one across an 8-byte unit is an
Unsupported Request of the host; the read of a group's lowest word latches the rest for its agent, which a later read of a latched word
gives; a write of a group's lower word is held for its agent until the highest is written; the written bits of a register that stands alone
take the word, bits cleared by writing 1 clear, and a reserved encoding or a change of a bit the image sets is refused; every write of a register
with a journaled field, and of any but ID_SCRATCH by the debug port, is entered in the journal (R443, R484, R508); a 2-octet write is a write of its register.
A command whose condition does not hold leaves the state as it is: the model's choice (log 7).
What it says of log 7, 50, 52, 53, 182 and 198 is the model's choice. -/
def Obligations.RegisterAccess : Prop := ∀ (s : State) (ag : Agent) (off : Nat), s.clk.fired = [] →
  ((ag = .host → s.fn.perstLow = false) → let g := regGroup off; let on := 0x400000 ≤ off ∨ s.regOn off = true
    let shown := fun (w : Word) (t : State) => ag = .host → t.out = .read [w] :: s.out
    (1 < g.2 → off = g.1 → trafficCounter off = none → answers (.groupReadLatch ag ⟨2 * off, 2⟩) s fun t => coreKept s t ∧ t.time = s.time ∧
      (off ≠ 0x010000 → shown (wordPeek s off) t) ∧
      (on → ∀ i, 1 ≤ i → i < g.2 → tblGet none t.fn.latched (shadowKey ag (g.1 + i)) =
        some (if g.1 = 0x010000 then wordAt (toWords t.now 6) i else wordPeek s (g.1 + i)))) ∧
    (1 < g.2 → off ≠ g.1 → latchedGroup g.1 = true → trafficCounter off = none → ∀ w, tblGet none s.fn.latched (shadowKey ag off) = some w →
      answers (.groupReadLatch ag ⟨2 * off, 2⟩) s fun t => (on → shown w t) ∧ (¬ on → shown 0#16 t) ∧ t = { s with out := t.out }) ∧
    (g.2 = 1 → answers (.groupReadLatch ag ⟨2 * off, 2⟩) s fun t => shown (wordPeek s off) t ∧ t = { s with out := t.out }) ∧
    (∀ byte n, n = 0 ∨ byte / 8 ≠ (byte + n - 1) / 8 → answers (.groupReadLatch ag ⟨byte, n⟩) s fun t => coreKept s t ∧
      if ag = .host then t.out = .unsupported :: s.out else t = s)) ∧
  (s.fn.perstLow = true → ∀ byte n, answers (.groupReadLatch .host ⟨byte, n⟩) s fun t => t = s) ∧
  (∀ w : Word, (mayWrite ag off = false ∨ off < 0x400000 ∧ s.regOn off = false ∨ s.baseShut ag off = true → answers (.groupWrite ag off w) s fun t => t = s) ∧
    (mayWrite ag off = true → 0x400000 ≤ off ∨ s.regOn off = true → s.baseShut ag off = false → let g := regGroup off;
      (off + 1 < g.1 + g.2 → g.2 ≠ 1 → answers (.groupWrite ag off w) s fun t =>
        t = { s with fn := { s.fn with held := tblSet none s.fn.held (shadowKey ag off) (some w) } }) ∧
      (g.1 + g.2 = off + 1 → g.2 ≠ 1 → answers (.groupWrite ag off w) s fun t => t.mem = s.mem ∧
        ∀ i < g.2, tblGet none t.fn.held (shadowKey ag (g.1 + i)) = none) ∧
      ∀ i : RegInfo, g.2 = 1 → regInfo off = some i → off / 8 ≠ 0x7000 →
        let takes := if agentOrigin ag = .boot ∨ agentOrigin ag = .image then i.rw ||| i.ri else i.rw; let old := s.reg off;
        let barred := (old ^^^ w) &&& i.ri &&& ~~~takes ≠ 0#16; let ok := s.legal off w = true ∧ ¬ barred;
        answers (.groupWrite ag off w) s fun t => t.mem = s.mem ∧
          t.reg off = (if ok then (w &&& takes) ||| (old &&& ~~~takes &&& ~~~(w &&& i.w1c)) else old) ∧
          (i.j = true ∨ ag = .debug ∧ scratchReg off = false → ∃ T link, t.jr.jseq = (s.jr.jseq + 1) % 2 ^ 32 ∧ t.jr.jring.head? = some (JEntry.words
            { origin := agentOrigin ag, target := .csr off, old := old, new := if ok then t.reg off else w
              status := if s.legal off w = false then .badArgument else if barred then .notPermitted else .ok
              detail := if s.legal off w = false then 0x58 else if barred then 0x43 else 0 } s.jr.jseq T link)) ∧
          (i.j = false → (ag ≠ .debug ∨ scratchReg off = true) → t.jr = s.jr))) ∧
  (∀ (lo hi : Byte) (octets : List Byte) (byte : Nat),
    (¬ (ag = .host ∧ s.fn.perstLow = true) → exec (.registerWrite ag (2 * off) [lo, hi]) s = exec (.groupWrite ag off (hi ++ lo)) s) ∧
    (answers (.registerWrite ag byte [lo]) s fun t => t = s) ∧
    (ag = .host → s.fn.perstLow = true → answers (.registerWrite ag byte octets) s fun t => t = s) ∧
    (¬ (ag = .host ∧ s.fn.perstLow = true) → octets.length = 0 ∨ byte / 8 ≠ (byte + octets.length - 1) / 8 →
      answers (.registerWrite ag byte octets) s fun t => coreKept s t ∧ t.out = s.out ∧ (ag ≠ .host → t = s))) ∧
  (∀ i w, i < 3184 → mayWrite ag (0x0E8000 + i * 8 + 3) = true → s.domainOn 29 = true → s.domainOn (groupDomain (groupOf i)) = true →
    answers (.counterSet ag i w) s fun t => t.mem = s.mem ∧
      (t.ctrAt i).val = wordsAt (s.groupWords ag (0x0E8000 + i * 8) 4 w) 0 (if isTopDown i = true then 4 else 3))

/-- The couriers (R208, R209, R210): GO starts the chain at the channel's address unless one is followed; a descriptor's row moves its
words and no other memory, COUNT steps, and the next descriptor or DONE follows; a descriptor that cannot be performed, and
ABORT, stop the channel with its code, words of earlier rows written.
A command whose condition does not hold leaves the state as it is: the model's choice (log 7).
What it says of log 7, 66, 191, 207, 208 and 209 is the model's choice. -/
def Obligations.Couriers : Prop := ∀ (s : State) (f : Fin 24) (c : Fin 16), let b := curBase f c; let at_ := f.val * 16 + c.val;
  (∀ (ag : Agent) (w : Word), mayWrite ag (b + 3) = true → frameOn s f = true →
    (w.getLsbD 14 = false → answers (.courierGo ag f c w) s fun t => if s.curBusy f c = true then sameFor ag s t
      else t.curBusy f c = true ∧ tblGet 0 t.cur at_ = s.regs b 3 ∧ coreKeptFor ag s t) ∧
    (w.getLsbD 14 = true → answers (.courierGo ag f c w) s fun t => t.curBusy f c = false ∧ t.bit (b + 4) 13 = true ∧ fld (t.reg (b + 4)) 4 4 = 4) ∧
    answers (.courierAbort ag f c w) s fun t => if s.curBusy f c = true ∨ w.getLsbD 15 = true then
      t.curBusy f c = false ∧ t.bit (b + 4) 13 = true ∧ fld (t.reg (b + 4)) 4 4 = 4 ∧ tblGet 0 t.cur at_ = 0 else sameFor ag s t) ∧
  (s.curRuns f c = false → answers (.descriptorComplete f c) s (fun t => t = s) ∧ answers (.chainError f c) s fun t => t = s) ∧
  (s.curRuns f c = true → let d := s.curAt f c; let u := s.curTry f c;
    (u.2 = none → answers (.chainError f c) s (fun t => t = s) ∧ answers (.descriptorComplete f c) s fun t =>
      t.mem = u.1.mem ∧ t.reg (b + 5) = s.reg (b + 5) + 1 ∧
      (d.irq = true → (t.engAt (reckoner (curReckoner f c))).ctrl.ipend.getLsbD 2 = true) ∧
      (if d.next = 0 then t.curBusy f c = false ∧ t.bit (b + 4) 14 = true ∧ tblGet 0 t.cur at_ = 0
       else t.curBusy f c = true ∧ tblGet 0 t.cur at_ = d.next) ∧
      (d.rows = 1 → d.src + d.len ≤ 0x4E00000000 → d.dst + d.len ≤ 0x4E00000000 →
        (∀ i < d.len, t.readMem (d.dst + i) = s.readMem (d.src + i)) ∧
        ∀ a, a < d.dst ∨ d.dst + d.len ≤ a → t.readMem a = s.readMem a)) ∧
    (∀ code, u.2 = some code → answers (.descriptorComplete f c) s (fun t => t = s) ∧ answers (.chainError f c) s fun t =>
      t.mem = u.1.mem ∧ t.curBusy f c = false ∧ t.bit (b + 4) 13 = true ∧ fld (t.reg (b + 4)) 4 4 = code % 16 ∧ tblGet 0 t.cur at_ = 0 ∧
      (t.engAt (reckoner (curReckoner f c))).ctrl.ipend.getLsbD 2 = true))

/-- Tally (R350, R353, R354, R361, R364): a minute whose increments are all counted is closed, which forms each billed instance's record and
steps its SEQ; a record is written at the ring's tail where there is room, else held, the newest four of an instance; a snapshot latches each
group of counters with its stamp, at its start or within 250 ns, and replaces the last when complete; the slot classifier counts two
slots at each sample.
A command whose condition does not hold leaves the state as it is: the model's choice (log 7).
What it says of log 7, 8, 59, 186 and 187 is the model's choice. -/
def Obligations.TallyActs : Prop := ∀ s : State,
  (let closes := s.minuteDone s.ty.minute = true ∧ s.minuteCounted s.ty.minute = true;
    (¬ closes → answers .minuteClose s fun t => t = s) ∧
    (closes → answers .minuteClose s fun t => t.ty.minute = s.ty.minute + 1 ∧ t.bit 0x0E0001 0 = true ∧ t.mem = s.mem ∧
      ∀ n ∈ s.billed, tblGet none s.tw.adopt n = none →
        (t.instAt n).ledger.seq = ((s.instAt n).ledger.seq + 1) % 2 ^ 32 ∧ (t.instAt n).ledger.inc = ((s.instAt n).ledger.close s.ty.minute).inc)) ∧
  (s.ty.lrOrphans = [] → s.nextRecord = none → answers .ledgerRecordWrite s fun t => coreKept s t ∧ t.out = s.out ∧ (s.lrRoom = true → t = s)) ∧
  (s.ty.lrOrphans = [] → ∀ n r l, s.nextRecord = some n → (s.instAt n).ledger.held = r :: l → answers .ledgerRecordWrite s fun t => coreKept s t ∧
    if s.lrRoom = true then (t.instAt n).ledger.held = (if t.lrRoom = true then l else (l.map recHeld).drop (l.length - 4)) ∧
      t.reg 0x0E0003 = s.reg 0x0E0003 + 1 ∧
      ∃ ws via o, t.out = .hostWrite (s.pasidOf 0) (s.ty.lrBase + 512 * ((s.reg 0x0E0003).toNat % 2 ^ s.ty.lrLog2)) ws via :: (o ++ s.out) ∧
        ws.drop 2 = r.drop 2 ∧ (wordAt ws 1).getLsbD 13 = ((wordAt r 1).getLsbD 13 || (s.instAt n).ledger.gap)
    else (isHeld r = false → t.bit 0x0E0001 1 = true) ∧ t.out = s.out ∧ (t.instAt n).ledger.held = (recHeld r :: l.map recHeld).drop (l.length - 3)) ∧
  (∀ r gap l, s.ty.lrOrphans = (r, gap) :: l → answers .ledgerRecordWrite s fun t => coreKept s t ∧
    if s.lrRoom = true then (t.lrRoom = true → t.ty.lrOrphans = l ∧ t.inst = s.inst) ∧ t.reg 0x0E0003 = s.reg 0x0E0003 + 1
    else (isHeld r = false → t.bit 0x0E0001 1 = true) ∧ t.out = s.out ∧ ∀ x ∈ t.ty.lrOrphans, isHeld x.1 = true) ∧
  (∀ (ag : Agent) (w : Word), mayWrite ag 0x0E0002 = true → s.domainOn 29 = true → answers (.ledgerRingDoorbell ag w) s fun t =>
    sameFor ag (if ringCount (s.reg 0x0E0003) w ≤ 2 ^ s.ty.lrLog2 then s.setReg 0x0E0002 w else s.setBit 0x0E0001 4) t) ∧
  (∀ (ag : Agent) (w : Word), mayWrite ag 0x0E0004 = true → s.domainOn 29 = true → answers (.snapGo ag w) s fun t =>
    if s.snapBusy = true then sameFor ag s t else t.snapBusy = true ∧ t.sn.startNew = t.now ∧ t.regs 0x0E0008 6 = t.now % 2 ^ 96 ∧ t.sn.snap = s.sn.snap ∧
      coreKeptFor ag s t ∧ ∀ i < 3184, (i < 3072 ∨ 3136 ≤ i ∧ i ≠ 3178 ∧ i ≠ 3179) → tblGet 0 t.sn.snapNew i = s.ctrValue i) ∧
  (s.snapBusy = false → answers .snapshotComplete s fun t => t = s) ∧
  (s.snapBusy = true → answers .snapshotComplete s fun t => t.snapBusy = false ∧ t.reg 0x0E0005 = s.reg 0x0E0005 + 1 ∧
    t.regs 0x0E0008 6 = s.regs 0x0E0008 6 ∧ t.bit 0x0E0001 3 = true ∧ coreKept s t ∧
    ∀ g < 245, tblGet 0 t.sn.stamps g = tblGet 0 s.sn.stampsNew g ∧ (∀ i, groupOf i = g → i < 3184 → tblGet 0 t.sn.snap i = tblGet 0 s.sn.snapNew i) ∨
      s.sn.startNew ≤ tblGet 0 t.sn.stamps g ∧ tblGet 0 t.sn.stamps g ≤ s.sn.startNew + 250 * 2 ^ 48 / 10 ^ 9) ∧
  ∀ r : Fin 192, let e := reckoner r.val; let v := fun (x : Engine) k => (tblGet {} x.perf k).val;
    (frameOn s (r.val / 8) = false → answers (.tdSample r) s fun t => t = s) ∧
    (frameOn s (r.val / 8) = true → answers (.tdSample r) s fun t => t.mem = s.mem ∧ (∀ g, g ≠ e → t.engAt g = s.engAt g) ∧
      (t.engAt e).regs = (s.engAt e).regs ∧ (∀ k < 4, v (t.engAt e) k = v (s.engAt e) k) ∧
      ((tblGet {} (s.engAt e).perf 4).en = true → v (t.engAt e) 4 = (v (s.engAt e) 4 + 2) % 2 ^ 64) ∧
      ((s.engAt e).run = .halted → (tblGet {} (s.engAt e).perf 5).en = true → v (t.engAt e) 5 = (v (s.engAt e) 5 + 2) % 2 ^ 64))

/-- The host's registers of a portal (R294, R295, R300, R317): a doorbell that keeps the ring's count within it sets its index, one that does
not sets ERR and nothing else; a ring with a legal size is enabled with both indices 0; ARM waits for an entry, or sends its message at
once where one is not consumed; unmasking a vector sends what is pending; a free instance's portal ignores writes.
A command whose condition does not hold leaves the state as it is: the model's choice (log 7).
What it says of log 7, 36, 55 and 204 is the model's choice. -/
def Obligations.PortalWrites : Prop := ∀ (s : State) (n : Fin 512) (w : Word), let p := portal n.val;
  (s.fn.perstLow = true ∨ (s.instAt n).st = .free → answers (.cmdDoorbell n w) s (fun t => t = s) ∧
    answers (.cplDoorbell n w) s (fun t => t = s) ∧ answers (.puntDoorbell n w) s (fun t => t = s) ∧ answers (.arm n w) s (fun t => t = s) ∧
    ∀ k : Fin 3, answers (.ringEnable n k w) s (fun t => t = s) ∧ answers (.ringDisable n k w) s fun t => t = s) ∧
  (s.fn.perstLow = false → (s.instAt n).st ≠ .free →
    (answers (.cmdDoorbell n w) s fun t => t.mem = s.mem ∧
      if ringCount w (s.reg (p 5)) ≤ 2 ^ s.ringLog2 n 3 then t.reg (p 4) = w ∧ t.csr = (s.setReg (p 4) w).csr ∧
        ∀ q : Fin 4, s.pairActive q = true → (t.engAt (stewardPair q)).ctrl.ipend.getLsbD 8 = true
      else t = s.setBit (p 3) 14) ∧
    (answers (.cplDoorbell n w) s fun t => coreKept s t ∧
      if ringCount (s.reg (p 13)) w ≤ 2 ^ s.ringLog2 n 11 then t.reg (p 12) = w else t = s.setBit (p 11) 14) ∧
    (answers (.puntDoorbell n w) s fun t =>
      if ringCount (s.reg (p 21)) w ≤ 2 ^ s.ringLog2 n 19 then t = s.setReg (p 20) w else t = s.setBit (p 19) 14) ∧
    (answers (.arm n w) s fun t => coreKept s t ∧
      if s.reg (p 13) = s.reg (p 12) ∧ s.reg (p 21) = s.reg (p 20) then t = s.setReg (p 24) 1#16
      else t.bit (p 24) 0 = false ∧
        if s.bit (0x1000000 + s.vectorOf n * 8 + 6) 0 = true ∧ s.fn.msixOn = true ∧ s.fn.msixMask = false ∧ s.dmaOff = false then
          t.out = .msix (s.vectorOf n) :: s.out
        else t.bit (0x1008000 + s.vectorOf n / 16) (s.vectorOf n % 16) = true ∧ t.out = s.out) ∧
    ∀ k : Fin 3, let c := 3 + 8 * k.val;
      (answers (.ringDisable n k w) s fun t => t.ringOn n c = false ∧ coreKept s t ∧ t.regs (p (c - 3)) 3 = s.regs (p (c - 3)) 3) ∧
      (s.ringOn n c = true → answers (.ringEnable n k w) s fun t => t.ringOn n c = true ∧ t.ringLog2 n c = s.ringLog2 n c ∧ coreKept s t ∧
        t.bit (p c) 14 = (s.bit (p c) 14 && !w.getLsbD 14)) ∧
      (s.ringOn n c = false → answers (.ringEnable n k w) s fun t =>
        if 4 ≤ fld w 0 4 ∧ (k.val = 2 → 11 ≤ fld w 8 4 ∧ fld w 8 4 ≤ 14) then
          t.ringOn n c = true ∧ t.ringLog2 n c = fld w 0 4 ∧ t.reg (p (c + 1)) = 0#16 ∧ (k.val ≠ 1 → t.reg (p (c + 2)) = 0#16) ∧ coreKept s t
        else t = s)) ∧
  ∀ v : Fin 2048, s.fn.perstLow = false → answers (.msixUnmask v w) s fun t => coreKept s t ∧ t.bit (0x1000000 + v.val * 8 + 6) 0 = true ∧
    if s.bit (0x1008000 + v.val / 16) (v.val % 16) = true ∧ s.fn.msixOn = true ∧ s.fn.msixMask = false ∧ s.dmaOff = false then
      t.out = .msix v.val :: s.out ∧ t.bit (0x1008000 + v.val / 16) (v.val % 16) = false else t.out = s.out

/-- The PCI Express function (R285, R287, R312, R313, R432): PERST_N and a Function Level Reset leave its registers at their reset values and
no instance or coach changed; before host-ready a configuration request gets Retry Status; after it a read shows the register, and a write
changes its read-write bits and enables what they enable; D3hot and D0 follow the host, and while it may not master the bus nothing is sent; an
invalidation drops the entries it names and is completed.
A command whose condition does not hold leaves the state as it is: the model's choice (log 7).
What it says of log 7, 144, 155, 156, 157, 182 and 204 is the model's choice. -/
def Obligations.HostFunction : Prop := ∀ s : State, let up := s.fn.perstLow = false ∧ s.hostReady = true;
  (s.fn.perstLow = true → answers .perstN s (fun t => t = s) ∧ ∀ i p a n, answers (.atsInvalidation i p a n) s fun t => t = s) ∧
  let cleared := fun (t : State) => t.fn.d3hot = false ∧ t.fn.config = [] ∧ t.fn.ats = [] ∧ t.fn.atsOn = false ∧ t.fn.busMaster = false ∧
    t.fn.msixOn = false ∧ t.fn.rewrite = false ∧ t.ik = s.ik ∧ t.gh = s.gh ∧ reckonersKept s t ∧ (∀ off, 0x1000000 ≤ off → t.reg off = 0#16) ∧
    ∀ n, (t.instAt n).st = (s.instAt n).st ∧ (t.instAt n).pasid = (s.instAt n).pasid ∧ (t.instAt n).shares = (s.instAt n).shares;
  (s.fn.perstLow = false → answers .perstN s (fun t => t.fn.perstLow = true ∧ cleared t) ∧
    answers .perstNRelease s (fun t => t = s) ∧
    ∀ i p a m, let n := if p = 0 then 0 else ((s.inst.find? fun x => decide (x.2.st ≠ .free) && decide (x.2.pasid = p)).map Prod.fst).getD 512;
      let hit := fun q => decide (a ≤ q) && decide (q < a + m); let l := s.loadsOf n fun q => q.pages.any hit;
      answers (.atsInvalidation i p a m) s fun t => coreKept s t ∧ (t.fn.ats = s.fn.ats.filter fun x => !(decide (x.inst = n) && hit x.page)) ∧
        (s.fn.invals = [] → if l = [] then t.out = .atsDone i.val :: s.out ∧ t.fn.invals = []
          else t.out = s.out ∧ t.fn.invals = [{ itag := i.val, inst := n, page := a, pages := m, loads := l }])) ∧
  (s.fn.perstLow = true → answers .perstNRelease s fun t => t.fn.perstLow = false ∧ t.hostReady = (s.hostReady || decide (5 ≤ s.stage)) ∧
    coreKept s t) ∧
  (¬ up → answers .functionLevelReset s (fun t => t = s) ∧ answers .d3hotEntry s (fun t => t = s) ∧ answers .d0Entry s fun t => t = s) ∧
  (up → answers .functionLevelReset s (fun t => t.fn.perstLow = false ∧ cleared t) ∧
    answers .d3hotEntry s (fun t => t.fn = { s.fn with d3hot := true } ∧ coreKept s t ∧ t.out = s.out ∧ t.ik = s.ik ∧ t.gh = s.gh) ∧
    answers .d0Entry s fun t => t.fn.d3hot = false ∧ coreKept s t ∧ (s.fn.d3hot = false → t = s) ∧
      (s.fn.busMaster = false → t.out = s.out) ∧
      (s.fn.d3hot = true → s.fn.busMaster = true → ∀ n < 512, s.cplRoom n = true → (s.instAt n).cplFirst = true ∨ (s.instAt n).notices = [] →
        ∀ c, (s.instAt n).heldCpl = some c → (s.instAt n).behind = [] → (t.instAt n).heldCpl = none)) ∧
  ∀ (dw : Fin 1024) (x : Option Long),
    (s.fn.perstLow = true ∨ s.domainOn 29 = false → answers (.configRequest dw x) s fun t => t = s) ∧
    (s.fn.perstLow = false → s.domainOn 29 = true → answers (.configRequest dw x) s fun t =>
      if s.hostReady = false then t = { s with out := .config true 0#32 :: s.out }
      else match x with
        | none => t = { s with out := .config false (s.configAt dw) :: s.out } ∧ (dw.val = 0 → s.configAt dw = 0x01921D5A#32)
        | some v => t.out.head? = some (.config false 0#32) ∧ coreKept s t ∧ (∀ off, 0x1000000 ≤ off → off < 0x1008000 → t.reg off = s.reg off) ∧
            (dw.val = Config.capDword 3 + 1 → t.fn.aerUnc = s.fn.aerUnc &&& ~~~v ∧ t.csr = s.csr) ∧
            (dw.val ≠ Config.capDword 3 + 1 → dw.val ≠ Config.capDword 3 + 4 →
              (dw.val = 1 → t.fn.busMaster = v.getLsbD 2) ∧
              (dw.val ≠ 1 → dw.val = Config.capDword 2 → t.fn.msixOn = v.getLsbD 31 ∧ t.fn.msixMask = v.getLsbD 30) ∧
              (dw.val ≠ 1 → dw.val ≠ Config.capDword 2 → dw.val = Config.capDword 5 + 1 → t.fn.atsOn = v.getLsbD 31) ∧
              ∃ y, tblGet none t.fn.config dw.val = some y ∧ y &&& configRw dw.val = v &&& configRw dw.val))

/-- Rounds and boundaries of the grid (R255, R257, R260, R270, R272, R274, R277, R511): a round or boundary begins when device time reaches it; at
a round weights committed take effect and powered frames return to service; at its boundary a coach that stays and is to move
is on its new reckoner; lost periods are padded; a drained frame that holds nothing is empty or out of service.
A command whose condition does not hold leaves the state as it is: the model's choice (log 7).
What it says of log 7, 8, 77 and 141 is the model's choice. -/
def Obligations.RoundsAndBoundaries : Prop := ∀ s : State,
  (∀ m, (s.time < (s.ik.round + 1) * 2 ^ 38 ∨ s.regOn 0x0C0000 = false → answers (.round m) s fun t => t = s) ∧
    ((s.ik.round + 1) * 2 ^ 38 ≤ s.time → s.regOn 0x0C0000 = true → answers (.round m) s fun t =>
      t.ik.round = s.ik.round + 1 ∧ t.ik.spread = s.bit 0x0C0004 15 ∧ t.ik.grid = s.ik.grid ∧
      (∀ n, (t.instAt n).weight = (s.instAt n).nextWeight.getD (s.instAt n).weight ∧ (t.instAt n).nextWeight = none) ∧
      (s.pw.parkAsked = false → ∀ f < 24, (s.frameAt f).back = true → (s.frameAt f).powered = true → (t.frameAt f).st = 0))) ∧
  (let i := s.ik.grid + 1;
    (s.time < boundaryOf 1 i ∨ s.regOn 0x0C0000 = false → answers .periodBoundary s fun t => t = s) ∧
    (boundaryOf 1 i ≤ s.time → s.regOn 0x0C0000 = true → answers .periodBoundary s fun t => t.ik.grid = i ∧ t.ik.round = s.ik.round ∧
      ∀ c r gm, let k := s.coach c;
        k.valid = true → i % k.mul = 0 → k.withdrawn = none → k.mergeInto = none → (∃ x ∈ k.members, x.last = none) → k.moveTo = some (r, gm) → gm ≤ i / k.mul →
          (t.coach c).reck = r ∧ (t.coach c).moveTo = none)) ∧
  (∀ c, answers (.innkeeperPadding c) s fun t => (t.coach c).pad = none ∧ t.mem = s.mem ∧ ((s.coach c).pad = none → t = s) ∧
    ∀ d, d ≠ c → t.coach d = s.coach d) ∧
  ∀ f : Fin 24, let x := s.frameAt f;
    (¬ (x.st = 1 ∧ s.frameEmpty f = true) → answers (.drainComplete f) s fun t => t = s) ∧
    (x.st = 1 → s.frameEmpty f = true → answers (.drainComplete f) s fun t => (t.frameAt f).st = (if x.retire = true then 3 else 2) ∧
      (x.recal = true → x.retire = false → (t.frameAt f).powered = false ∧ (t.frameAt f).poweringUp = true))

/-- Waybills (R208, R263, R264, R277, R478, R509, R511): the due and next coach's waybill enters its reckoner's queue, its period staged by the
reckoner's two courier channels in turn; a reckoner halted by debug gets none; where no reckoner takes it the period ends in its fallback; a
best-effort job goes by order of issue when its tokens allow.
A command whose condition does not hold leaves the state as it is: the model's choice (log 7).
What it says of log 7, 74, 76, 77, 82, 160, 179 and 197 is the model's choice. -/
def Obligations.Waybills : Prop := ∀ (s : State) (st dep : Addr),
  (∀ c descs : Nat,
    (s.dueWaybill c = none → answers (.waybillIssue c st dep descs) s fun t => t = s) ∧
    ∀ g, s.dueWaybill c = some g → let k := s.coach c; let e := reckoner k.reck; let n := s.stagedWords k g;
      let ch := curBase (frameOf k.reck) (s.turnOf k.reck);
      (s.isNext c g = false ∨ ownPlace e st n = none ∨ (s.engAt e).run = .halted → answers (.waybillIssue c st dep descs) s fun t => t = s) ∧
      (s.isNext c g = true → (s.engAt e).run ≠ .halted → ∀ pa, ownPlace e st n = some pa →
        let u := match k.incoming with | some (h, ws) => if h ≤ g then s.writeMem k.stateBase ws else s | none => s;
        let b := slotBase e (s.engAt e).iqTail.toNat;
        let apart := fun a m => a + m ≤ pa ∨ pa + n ≤ a;
        let takes := engInService s e = true ∧ queueFull u e 3 = false;
        (takes → s.bad = [] → answers (.waybillIssue c st dep descs) s fun t => (t.coach c).issued = some g ∧ (t.coach c).lastIssued = some g ∧
          (t.coach c).stagedAt = some pa ∧ (t.coach c).fellBack = k.fellBack ∧ (t.engAt e).iqTail = (s.engAt e).iqTail + 1#5 ∧
          t.reg (ch + 5) = s.reg (ch + 5) + BitVec.ofNat 16 (max 1 descs) ∧ t.bit (ch + 4) 14 = true ∧
          (t.turnOf k.reck + s.turnOf k.reck = k.reck % 8 * 4 + 1) ∧
          (∀ a, a + 1 ≤ b ∨ b + 56 ≤ a → apart a 1 → t.readMem a = u.readMem a) ∧
          (apart b 56 → t.readMem b = 0xB030#16 ∧ t.readMem (b + 1) = 1#16 ∧ memWords t.mem (b + 2) 6 = toWords (boundaryOf k.mul g) 6 ∧
            memWords t.mem (b + 8) 48 = s.waybill c g st dep) ∧
          ∀ q ∈ k.staged g, let a := s.stateOf k q.2.slot; let z := (s.progOf k).staged; apart b 56 → a + z ≤ b → a + z ≤ pa →
            memWords t.mem (pa + q.1 * z) z = memWords u.mem a z) ∧
        (takes → ∀ m ∈ k.at_ g, ∀ i < (s.progOf k).staged, let a := s.stateOf k m.slot + i; a < 0x4000000000 → isBad u a = true →
          answers (.waybillIssue c st dep descs) s fun t => (t.coach c).issued = some g ∧ (t.coach c).fellBack = some g ∧
            (t.coach c).ended.err = true ∧ fld (t.reg (ch + 4)) 4 4 = 3) ∧
        (¬ takes → answers (.waybillIssue c st dep descs) s fun t => (t.coach c).issued = none ∧ (t.coach c).lastIssued = some g ∧
          (t.coach c).fellBack = some g ∧ (t.coach c).pad = some g))) ∧
  ∀ r : Fin 192, let e := reckoner r.val; let place := fun j : BeJob => ownPlace e st (s.prog j.inst j.prog).beState;
    let barred := s.bit 0x0C0000 15 = true ∨ s.parking = true ∨ s.leads = false ∨ s.placeable (frameOf r.val) = false ∨
      engInService s e = false ∨ (s.engAt e).run = .halted;
    (barred → answers (.beIssue r st dep) s fun t => t = s) ∧
    (¬ barred → (s.beWaiting.find? fun j => s.beReady j) = none → answers (.beIssue r st dep) s fun t => coreKept s t ∧ t.ik = s.ik ∧
      (s.beWaiting ≠ [] → t.bit 0x0C0001 6 = true)) ∧
    (¬ barred → ∀ j, (s.beWaiting.find? fun j => s.beReady j) = some j → let p := s.prog j.inst j.prog;
      (place j = none → answers (.beIssue r st dep) s fun t => coreKept s t ∧ t.ik = s.ik) ∧
      ∀ pa, place j = some pa → s.bad = [] → queueFull (s.copyWords p.beBase pa p.beState) e 3 = false → answers (.beIssue r st dep) s fun t =>
        t.ik.beTag = j.finish ∧ (∀ x ∈ t.ik.bejobs, x.id = j.id → x.issued = some (r.val, s.ik.round) ∧ x.stagedAt = some pa) ∧
        ∃ T, s.now ≤ T ∧ t.mem = (queueWrite (s.copyWords p.beBase pa p.beState) e 3 2#16 T (s.beWaybill j st dep)).mem)

/-- The pace governor and frames (R396, R397, R399, R400, R403, R407): each 100 µs the monitors are shown, and a frame below the floor brings the
stage to yield; a frame powered up runs its reckoners, one whose test failed is out of service; a frame is drained for recalibration when its hours are over.
A command whose condition does not hold leaves the state as it is: the model's choice (log 7).
What it says of log 7, 8, 46, 78, 79, 80 and 81 is the model's choice. -/
def Obligations.GovernorAndFrames : Prop := ∀ s : State,
  (∀ (ps : List Nat) (ts : List Int) (ok : Bool),
    let due := usPassed s.pw.intervalAt s.time 100 = true ∧ s.regOn 0x020000 = true;
    (¬ due → answers (.governorInterval ps ts ok) s fun t => t = s) ∧
    (due → answers (.governorInterval ps ts ok) s fun t => t.pw.intervalAt = s.time ∧ t.time = s.time ∧
      (∀ i < 32, t.reg (0x020040 + i) = BitVec.ofInt 16 (ts.getD i 0)) ∧
      (∀ f < 24, (frameOn s f = false → t.reg (0x020010 + f) = 0#16) ∧
        (frameOn s f = true → frameOn t f = true → t.reg (0x020010 + f) = BitVec.ofNat 16 (min 65535 (ps.getD f 0)))) ∧
      (∀ f < 24, frameOn s f = true → ps.getD f 0 < 1600 → fld (t.reg 0x020000) 14 2 = 3 ∧ t.bit 0x020000 13 = false))) ∧
  (∀ f : Fin 24, let x := s.frameAt f;
    (x.poweringUp = false → ∀ y, answers (.framePowerUp f y) s fun t => t = s) ∧
    (x.poweringUp = true → (∀ y : PowerUp, y.selfTest = true → s.calibrated f y.pace = true → answers (.framePowerUp f y) s fun t =>
        frameOn t f = true ∧ (t.frameAt f).poweringUp = false ∧ (t.frameAt f).back = true ∧ (t.frameAt f).st = x.st ∧
        ∀ i : Fin 8, (t.engAt (reckoner (f.val * 8 + i.val))).run = .running ∨ (t.engAt (reckoner (f.val * 8 + i.val))).run = .halted) ∧
      ∀ y : PowerUp, y.selfTest = false ∨ s.calibrated f y.pace = false → answers (.framePowerUp f y) s fun t => (t.frameAt f).st = 3 ∧ (t.frameAt f).poweringUp = false ∧ t.bit 0x020001 0 = true ∧ t.eng = s.eng)) ∧
  (let h := fld (s.reg 0x020002) 0 8;
    let due := h ≠ 0 ∧ s.leads = true ∧ usPassed s.pw.recalAt s.time (h * 3600000000) = true;
    (¬ due → answers .recalStart s fun t => t = s) ∧
    (due → answers .recalStart s fun t => t.pw.recalAt = s.time ∧ t.mem = s.mem ∧
      ∀ f, (∀ g < 24, (s.frameAt g).recal = false) → s.nextInService s.pw.recalNext = some f → s.allPlaced f = true →
        (t.frameAt f).st = 1 ∧ (t.frameAt f).recal = true ∧ t.pw.recalNext = (f + 1) % 24))

/-- Ingress (R220, R221, R224, R226, R241 to R243, R379): a frame on a port with no link is not taken; one the MAC discards is only counted; an
ARP frame is punted to the manager; a media frame within its ring's window fills its slot and no other memory; a port's link change sets LINK_CHG;
datagrams not reassembled for 1 s and standby frames older than 500 µs go.
A command whose condition does not hold leaves the state as it is: the model's choice (log 7).
What it says of log 7, 38, 46, 99, 100, 101, 103 and 111 is the model's choice. -/
def Obligations.Ingress : Prop := ∀ s : State,
  (∀ (p : Fin 8) (o : List Byte) (ovr : Bool), let r := s.readTime; let f := o.take (o.length - 4); let ip := parseIp f;
    let live := s.ghOn = true ∧ p.val < s.portCount ∧ s.bit (0x080010 + p.val) 15 = true;
    (¬ live → answers (.frameReceive p o ovr) s fun t => t = s) ∧
    (live → ∀ k, s.macReason p o = some k → answers (.frameReceive p o ovr) s fun t =>
      coreKept s t ∧ t.gh = s.gh ∧ t.out = s.out ∧ t.inst = s.inst ∧ t.csr = s.csr) ∧
    (live → s.macReason p o = none → etherType f = 0x0806 → s.leads = true → s.puntRoom 0 = true → answers (.frameReceive p o ovr) s fun t =>
      coreKept s t ∧ t.gh = s.gh ∧ t.reg (portal 0 21) = s.reg (portal 0 21) + 1) ∧
    (live → s.macReason p o = none → etherType f ≠ 0x88F7 → isIp f = true → ip.bad = false → ip.sumBad = false → ip.opts = false → ip.ext = false →
      ip.frag = none → ip.proto = 17 → ip.hasUdp = true → udpOk f ip = true → udpDport f ip ≠ 319 → udpDport f ip ≠ 320 →
      s.ctlPort ip.dst (udpDport f ip) = none → s.leads = true → ovr = false →
      ∀ k, s.classify p ((vlanId f).getD 0) ip.v6 ip.dst (udpDport f ip) ip.src (udpSport f ip) = some k →
        let x := s.stream k.stream; let d := udpPayload f ip; let cur := curPeriod x.mul r.1; let n := x.aheadOf cur (beNat d 4 4);
        let g := ((cur : Int) + n).toNat; let a := x.slotAt k.leg g; let ps := rtpParts d;
        x.ssrcChk = false → x.srtp = false → x.form < 2 → ¬ (64 ≤ octAt d 1 % 128 ∧ octAt d 1 % 128 ≤ 95) →
        (s.police k.stream k.leg false cur).2 = false → 0 < n → n < (2 ^ x.ringLog2 : Int) → r.1 < boundaryOf x.mul g → s.slotHas a g = false →
        ps.data.length ≤ 8 * x.slotUnits → answers (.frameReceive p o ovr) s fun t =>
          t.mem = (s.writeMem a (ps.head ++ toWords r.1 6 ++ toWords g 2 ++ ps.data)).mem ∧ t.eng = s.eng ∧ t.gh.streams = s.gh.streams)) ∧
  (∀ (p : Fin 8) (y : Option (Fin 8)), let b := 0x080010 + p.val;
    (s.ghOn = false ∨ s.portCount ≤ p.val ∨ (∃ q, y = some q ∧ s.phyUsable q.val = false) → answers (.portLinkChange p y) s fun t => t = s) ∧
    (s.ghOn = true → p.val < s.portCount → (∀ q, y = some q → s.phyUsable q.val = true) → answers (.portLinkChange p y) s fun t => coreKept s t ∧ t.bit b 15 = y.isSome ∧
      (∀ q, y = some q → fld (t.reg b) 10 3 = q.val) ∧ (s.bit b 15 ≠ y.isSome → t.bit b 0 = true ∧ t.bit 0x080101 0 = true))) ∧
  (answers .fragTimeout s fun t => coreKept s t ∧ t.gh.reasm = s.gh.reasm.filter fun r => decide (s.now < r.start + 2 ^ 48)) ∧
  answers .standbyExpired s fun t => coreKept s t ∧ t.out = s.out ∧ t.gh.standby = s.gh.standby.filter fun x => decide (s.now < x.stamp + usUnits 500)

/-- The departure board, the classifier and scrubbing (R215, R228 to R230, R246 to R250, R389, R457): an entry arrives, and at its RELEASE its
frame crosses the wire, or is kept on a device that does not send; a re-key swaps the tables; an item lost is absent until
rebuilt; scrubbing marks what it finds.
A command whose condition does not hold leaves the state as it is: the model's choice (log 7).
What it says of log 7, 32, 96, 107, 115, 117, 119, 121 and 177 is the model's choice. -/
def Obligations.DeparturesAndTables : Prop := ∀ s : State,
  (∀ (n : Nat) (w : List Word), let d := depOf w n fun i => (s.stream i).egressPort;
    (∀ m, answers (.departureSubmit none n ⟨none, m⟩) s fun t => t = s) ∧
    (∀ m, (wordAt w 0).getLsbD 15 = false ∨ d.kind = 3 → answers (.departureSubmit none n ⟨some [w], m⟩) s fun t => t = s) ∧
    ∀ m, (wordAt w 0).getLsbD 15 = true → d.kind = 1 ∨ d.kind = 2 → s.looseRoom = true → d.release ≤ s.now + 2 ^ 48 →
      let late := d.release ≠ 0 ∧ d.release < s.now + usUnits 2;
      answers (.departureSubmit none n ⟨some [w], m⟩) s fun t => coreKept s t ∧ t.gh.depNext = s.gh.depNext + 1 ∧
        t.gh.board = s.gh.board ++ [{ d with order := s.gh.depNext, at_ := max d.release s.now, late := decide late }] ∧
        (late → t.bit 0x080101 5 = true)) ∧
  (∀ (c n : Nat) (l : List (List Word)), let k := s.coach c;
    (k.valid = false ∨ k.lastIssued = none ∨ k.listed = k.lastIssued ∨ k.issued = k.lastIssued →
      ∀ o m, answers (.departureSubmit (some c) n ⟨o, m⟩) s fun t => t = s) ∧
    (∀ g, k.valid = true → k.lastIssued = some g → k.listed ≠ some g → k.issued ≠ some g →
      (∀ m, k.fellBack ≠ some g → k.fbList = none → answers (.departureSubmit (some c) n ⟨some l, m⟩) s fun t => (t.coach c).listed = some g ∧
        ∀ q ∈ m, (s.stream q.1).coach = some c → (m.filter fun x => decide (x.1 = q.1)) = [q] → (t.stream q.1).nextAnchor = some q.2) ∧
      (∀ m, k.fellBack = some g ∨ k.fbList ≠ none → answers (.departureSubmit (some c) n ⟨some l, m⟩) s fun t => t = s) ∧
      (∀ m h fb, k.fbList = some (h, fb) → answers (.departureSubmit (some c) n ⟨none, m⟩) s fun t =>
        if h = g then (t.coach c).listed = some g ∧ (t.coach c).fbList = none else t = s))) ∧
  (s.dueDep = none → answers .departureRelease s fun t => t = s) ∧
  (∀ d, s.dueDep = some d → answers .departureRelease s fun t => (∀ x ∈ t.gh.board, x.order ≠ d.order) ∧
    ∀ o, (s.depFrame d).2 = .ok o → (s.stream d.stream).srtp = false →
      if s.boardSends d.release = true then
        s.gh.waiting = [] → tblGet false s.gh.portBusy d.port = false → s.isAdmitted d = true →
          if s.tw.gateClosed = false ∧ s.pw.scanTaken = false then t.out = .frame d.port (withFcs o) :: s.out
          else t.out = s.out ∧ ∃ r ∈ t.gh.waiting, r.frame = o ∧ r.port = d.port ∧ r.release = d.release
      else t.out = s.out ∧ ∃ k ∈ t.gh.kept, k.frame = o ∧ k.port = d.port ∧ k.release = d.at_) ∧
  (∀ p : Fin 8,
    ((∀ r ∈ s.gh.waiting, r.port ≠ p.val) → answers (.frameTransmitted p) s fun t => t.out = s.out ∧ tblGet false t.gh.portBusy p.val = false ∧
      coreKept s t) ∧
    (∀ r, s.gh.waiting = [r] → r.port = p.val → r.admitted = true → s.tw.gateClosed = false → s.pw.scanTaken = false →
      answers (.frameTransmitted p) s fun t => t.out = .frame p.val (withFcs r.frame) :: s.out ∧ tblGet false t.gh.portBusy p.val = true)) ∧
  (let due := s.rekeying = false ∧ s.leads = true ∧ s.atRound = true ∧ 768 < s.gh.stash.length ∧
      (∀ at_, s.gh.rekeySelf = some at_ → usPassed at_ s.time (s.policy 6 * 1000000) = true);
    (¬ due → answers .rekeyStart s fun t => t = s) ∧
    (due → answers .rekeyStart s fun t => t.rekeying = true ∧ t.bit 0x080101 2 = true ∧ t.activeTable = s.activeTable ∧ t.mem = s.mem)) ∧
  (¬ (s.rekeying = true ∧ s.leads = true ∧ s.refilled ≠ none) → answers .rekeyDone s fun t => t = s) ∧
  (s.rekeying = true → s.leads = true → s.refilled ≠ none → answers .rekeyDone s fun t => t.rekeying = false ∧ t.activeTable = 1 - s.activeTable ∧
    t.bit 0x080101 3 = true ∧ t.mem = s.mem ∧ (∀ x ∈ s.gh.stash, x ∈ t.allKeys) ∧ ∀ p x, tblGet none s.gh.keys p = some x → x ∈ t.allKeys) ∧
  (∀ lost : Bool,
    (∀ p x, tblGet none s.gh.keys p = some x → answers (.tableRebuild (.key p) lost) s fun t => coreKept s t ∧
      tblGet none t.gh.keys p = some { x with absent := lost } ∧ ∀ q, q ≠ p → tblGet none t.gh.keys q = tblGet none s.gh.keys q) ∧
    (∀ n, answers (.tableRebuild (.departure n) lost) s fun t => coreKept s t ∧ (∀ d ∈ t.gh.board, d.order = n → d.lost = lost) ∧
      t.gh.board.length = s.gh.board.length) ∧
    (∀ i, answers (.tableRebuild (.stash i) lost) s fun t => coreKept s t ∧ t.gh.stash.length = s.gh.stash.length) ∧
    (∀ i, (s.stream i).valid = true → answers (.tableRebuild (.template i) lost) s fun t => t.eng = s.eng ∧
      if lost = true then t.mem = s.mem ∧ isBad t (s.stream i).template = true
      else t.bad = clearBad s.bad ((s.stream i).template / 4 * 4) ((s.stream i).template % 4 + (s.stream i).tmpl.length + 3)
          ((s.stream i).template % 4 + (s.stream i).tmpl.length + 3) ∧
        ∀ j < (s.stream i).tmpl.length, t.readMem ((s.stream i).template + j) = wordAt (s.stream i).tmpl j)) ∧
  (∀ (b : Nat) (odd : Bool) (blk : Nat) (free pass : Bool), let d := s.board b; let k := blockKey b odd.toNat blk;
    (d.valid = false ∨ d.len1 < blk → ∀ x, answers (.scrub (.bank b odd blk) x free pass) s fun t => t = s) ∧
    (d.valid = true → blk ≤ d.len1 → answers (.scrub (.bank b odd blk) .uncorrectable free pass) s fun t => coreKept s t ∧
      (tblGet {} t.blocks k).poison = true ∧ (tblGet {} t.blocks k).tot = (tblGet {} s.blocks k).tot)) ∧
  (∀ (e : EngId) (pa : Nat) (free pass : Bool) (d : DLine), ((s.engAt e).dcache.find? fun c => c.line == lineOf pa) = some d → d.dirty = false →
    answers (.scrub (.dcache e pa) .uncorrectable free pass) s fun t => t.mem = s.mem ∧
      (t.engAt e).dcache = (s.engAt e).dcache.filter fun c => c.line != lineOf pa) ∧
  (∀ (e : EngId) (l : Nat) (free pass : Bool), (∃ d ∈ (s.engAt e).icache, d.line = l) →
    answers (.scrub (.icache e l) .uncorrectable free pass) s fun t => t.mem = s.mem ∧
      (t.engAt e).icache = (s.engAt e).icache.filter fun d => d.line != l) ∧
  ∀ (pa : Addr) (found : Finding) (free pass : Bool), regionOf pa.toNat = .dram → let c := dramChannel pa.toNat; let b := 0x100001 + c * 0x1000;
    let there := rowsLog2 s c ≠ 0 ∧ s.domainOn 30 = true;
    (¬ there → answers (.scrub (.word pa) found free pass) s fun t => t = s) ∧
    (there → dramBacked s pa.toNat = true → answers (.scrub (.word pa) found free pass) s fun t =>
      (found = .corrected → t.bit b 0 = true ∧ coreKept s t) ∧ (found = .uncorrectable ∨ found = .both → t.bit b 1 = true) ∧
      (found = .link → t.bit b 2 = true) ∧ (pass = true → t.bit b 3 = true) ∧ (found = .clean → coreKept s t))

/-- The manager's commands to instances (R292, R294, R303, R310, R312): each, read and checked, has its own effect where its own conditions hold; a
quiescing instance becomes quiesced once it is quiet, an active one ERROR at an error, the first cause kept.
A command whose condition does not hold leaves the state as it is: the model's choice (log 7).
What it says of log 7, 68, 93, 97, 98 and 182 is the model's choice. -/
def Obligations.InstanceManagement : Prop := ∀ (s : State) (e : Entry), let i := e.w2.toNat; let sh := entryShares e;
  let pasid := entryArgs e 3 1 + 65536 * fld (entryArg e 4) 0 4;
  commandRuns (.instanceCreate e) e 0x01 true (wRange 3 27) s
    (fun u => pasid ≠ 0 ∧ fld (entryArg e 4) 4 12 = 0 ∧ 16 ≤ (entryArg e 5).toNat ∧ (entryArg e 5).toNat ≤ 2047 ∧ entryArg e 17 ≠ 0#16 ∧
      (u.instAt i).st = .free ∧ u.pasidHeld i pasid = false ∧ ∀ k < 4, u.poolSum i k (sh.getD k 0) ≤ u.pool k)
    (fun _ t => (t.instAt i).st = .active ∧ (t.instAt i).pasid = pasid ∧ (t.instAt i).vector = (entryArg e 5).toNat ∧
      (t.instAt i).weight = (entryArg e 17).toNat) ∧
  commandRuns (.instanceSetShare e) e 0x02 true (wRange 6 27) s
    (fun u => ((u.instAt i).st = .active ∨ (u.instAt i).st = .quiesced) ∧ entryArg e 17 ≠ 0#16 ∧
      ∀ k < 4, sh.getD k 0 = allOnes k ∨ sh.getD k 0 ≤ (u.instAt i).held k ∨ u.poolSum i k (sh.getD k 0) ≤ u.pool k)
    (fun u t => (t.instAt i).nextWeight = (if entryArg e 17 = 0xFFFF#16 then (u.instAt i).nextWeight else some (entryArg e 17).toNat) ∧
      (t.instAt i).shares = (u.instAt i).shares) ∧
  commandRuns (.instanceQuiesce e) e 0x03 true [] s (fun u => (u.instAt i).st = .active ∨ (u.instAt i).st = .error)
    (fun _ t => (t.instAt i).st = .quiescing ∧ (t.instAt 0).busy = some { op := 3, tag := e.tag, result := 0, wait := .quiesce i }) ∧
  commandRuns (.instanceReset e) e 0x04 true [] s (fun u => (u.instAt i).st = .quiesced)
    (fun _ t => (t.instAt i).st = .active ∧ (t.instAt i).cause = 0 ∧ (∀ c ∈ [3, 11, 19], t.ringOn i c = false) ∧
      ∀ p < 2048, (t.prog i p).valid = false) ∧
  commandRuns (.instanceRemove e) e 0x05 true [] s (fun u => (u.instAt i).st = .quiesced)
    (fun _ t => (t.instAt i).st = .free ∧ (∀ o < 25, t.reg (portal i o) = 0#16) ∧ ∀ p < 2048, (t.prog i p).valid = false) ∧
  commandRuns (.instanceSetPasid e) e 0x06 true [3, 4] s
    (fun u => (u.instAt i).st = .active ∧ pasid ≠ 0 ∧ fld (entryArg e 4) 4 12 = 0 ∧ u.pasidHeld i pasid = false)
    (fun u t => (t.instAt i).pasid = pasid ∧ (∀ a ∈ t.fn.ats, a.inst ≠ i) ∧ let l := u.loadsOf i fun _ => true;
      l ≠ [] → (t.instAt 0).busy = some { op := 6, tag := e.tag, result := 0, wait := .pasid l }) ∧
  commandRuns (.dirtyLogStart e) e 0x08 true (wRange 3 10) s
    (fun u => (u.instAt i).st = .active ∧ entryArgs e 3 3 % 8 = 0 ∧ entryArgs e 6 3 % 4096 = 0 ∧ entryArgs e 3 3 < 2 ^ 40 ∧
      entryArgs e 6 3 < 2 ^ 40 ∧ (u.instAt i).log = none)
    (fun _ t => (t.instAt i).log = some { bitmap := entryArgs e 3 3, base := entryArgs e 6 3, pages := entryArgs e 9 2 }) ∧
  (∀ d, commandRuns (.dirtyLogSwap e) e 0x09 true [3, 4, 5] s
    (fun u => entryArgs e 3 3 % 8 = 0 ∧ entryArgs e 3 3 < 2 ^ 40 ∧ (u.instAt i).log = some d)
    (fun _ t => (t.instAt i).log = some { d with bitmap := entryArgs e 3 3, logged := [] })) ∧
  commandRuns (.dirtyLogStop e) e 0x0A true [] s (fun u => (u.instAt i).log ≠ none) (fun _ t => (t.instAt i).log = none) ∧
  (∀ n : Fin 512, (¬ ((s.instAt n).st = .quiescing ∧ s.quiet n = true) → answers (.quiesceComplete n) s fun t => t = s) ∧
    ((s.instAt n).st = .quiescing → s.quiet n = true → answers (.quiesceComplete n) s fun t => (t.instAt n).st = .quiesced ∧ t.mem = s.mem)) ∧
  (∀ (n : Fin 512) (c : Fin 4), let aer := fun t : State => (c.val = 1 → t.fn.aerUnc.getLsbD 12 = true) ∧ (c.val = 2 → t.fn.aerUnc.getLsbD 14 = true);
    (n.val = 0 ∨ (s.instAt n).st = .free → answers (.instanceError n c) s fun t => aer t ∧ t = { s with fn := { s.fn with aerUnc := t.fn.aerUnc } }) ∧
    (n.val ≠ 0 → (s.instAt n).st = .active → answers (.instanceError n c) s fun t => aer t ∧ (t.instAt n).st = .error ∧ coreKept s t ∧
      (t.instAt n).cause = (if (s.instAt n).cause = 0 then c.val + 1 else (s.instAt n).cause)))

/-- The manager's commands to frames, classes, pieces, journal, ledger, snapshot, twin and power states (R303, R304, R392, R394, R410, R411, R436 to
R440, R449): each, read and checked, has its own effect where its own conditions hold.
A command whose condition does not hold leaves the state as it is: the model's choice (log 7).
What it says of log 7, 48, 68, 82, 88, 89 and 132 is the model's choice. -/
def Obligations.ManagerCommands : Prop := ∀ (s : State) (e : Entry), let i := e.w2.toNat; let slot := 1 - s.bootSlot; let f := (entryArg e 3).toNat;
  commandRuns (.frameDrain e) e 0x0C true [3] s (fun _ => f < 24)
    (fun u t => (t.frameAt f).st = (if (u.frameAt f).st = 0 then 1 else (u.frameAt f).st) ∧ ∀ g, g ≠ f → t.frameAt g = u.frameAt g) ∧
  commandRuns (.frameReturn e) e 0x0D true [3] s (fun _ => f < 24)
    (fun u t => ((u.frameAt f).st = 0 → t.frames = u.frames) ∧
      ((u.frameAt f).st ≠ 0 → (u.frameAt f).st ≠ 3 → (u.frameAt f).powered = true → (t.frameAt f).back = true) ∧
      ((u.frameAt f).st = 2 ∨ (u.frameAt f).st = 3 → (u.frameAt f).powered = false ∨ (u.frameAt f).st = 3 → (t.frameAt f).poweringUp = true)) ∧
  commandRuns (.classRekey e) e 0x0E true [] s (fun u => u.rekeying = false) (fun _ t => t.rekeying = true ∧ t.bit 0x080101 2 = true) ∧
  (∀ same : Bool, commandRuns (.pieceStageBegin ⟨e, same⟩) e 0x10 true [3] s
    (fun u => entryArg e 3 = 0#16 ∧ u.bit 0x030000 10 = false ∧ u.cf.erasing = none)
    (fun u t => t.staged = 1 ∧ t.cf.erasing = some u.now ∧ t.cf.written = [] ∧ t.cf.eraseSame = (same || decide (u.role ≠ 1) || !u.linkUp))) ∧
  (∀ o, commandRuns (.pieceStageWrite e (.data o) true) e 0x10 true (wRange 3 9) s
    (fun u => entryArg e 3 = 1#16 ∧ entryArg e 9 ≠ 0#16 ∧ (entryArg e 9).toNat ≤ 256 ∧ u.staged = 1 ∧ u.cf.erasing = none ∧
      ∀ k < (entryArg e 9).toNat, entryArgs e 4 2 + k < slotUnits4k ∧ entryArgs e 4 2 + k ∉ u.cf.written)
    (fun _ t => ∀ k < (entryArg e 9).toNat, tblGet [] t.cf.flash (slot * 65536 + entryArgs e 4 2 + k) = (o.drop (k * 4096)).take 4096)) ∧
  commandRuns (.pieceStageVerify e true) e 0x10 true [3] s (fun _ => entryArg e 3 = 2#16)
    (fun u t => if u.imageOk slot = true ∧ u.svnMin ≤ u.imageSvn slot then t.staged = 2 else t.staged = 3 ∧ t.bit 0x030001 1 = true) ∧
  (∀ p, commandRuns (.pieceActivate e) e 0x11 true [3, 4, 5] s
    (fun u => let kind := (entryArg e 4).toNat;
      entryArg e 3 = 0#16 ∧ u.staged = 2 ∧ (∀ a ∈ u.cf.acts, a.piece.kind ≠ kind) ∧ kind ≠ 1 ∧ kind ≠ 8 ∧
      u.stagedPiece kind (entryArg e 5).toNat = some p ∧ (kind = 2 → u.hasStandby = true) ∧ u.pieceBound p = false ∧
      ∀ x, tblFind u.cf.active (kind * 64 + (entryArg e 5).toNat % 64) = some x → x.digest ≠ p.digest)
    (fun u t => t.cf.acts = if p.ok = true then { piece := p, instant := firstPeriodAt 1 (u.now + (2 ^ 48 + 49) / 50) } :: u.cf.acts else u.cf.acts)) ∧
  commandRuns (.pieceActivateCommit e) e 0x11 true [3] s (fun u => entryArg e 3 = 1#16 ∧ u.staged = 2) (fun _ t => t.bit 0x030001 3 = true) ∧
  commandRuns (.pieceActivateConfirm e) e 0x11 true [3] s (fun u => entryArg e 3 = 2#16 ∧ u.bit 0x030000 12 = true)
    (fun u t => t.bit 0x030001 3 = true ∧ u.cf.svn ≤ t.cf.svn) ∧
  commandRuns (.journalRead e) e 0x12 true (wRange 3 9) s (fun _ => entryArg e 6 ≠ 0#16 ∧ (entryArg e 6).toNat ≤ 4096 ∧ f ≤ 1)
    (fun u t => t.jr = u.jr ∧ t.mem = u.mem ∧
      let l := ((u.journalEntries (decide (f = 1))).filter fun x =>
        (BitVec.ofNat 32 (entrySeq x) - BitVec.ofNat 32 (entryArgs e 4 2)).toInt ≥ 0).take (entryArg e 6).toNat;
      l ≠ [] → ∃ via, Out.hostWrite (u.pasidOf 0) (entryArgs e 7 3) l.flatten via ∈ t.out) ∧
  commandRuns (.ledgerRingSet e) e 0x14 true (wRange 3 7) s
    (fun u => entryArg e 3 = 0#16 ∧ entryArgs e 4 3 % 4096 = 0 ∧ entryArgs e 4 3 < 2 ^ 40 ∧ 4 ≤ (entryArg e 7).toNat ∧
      (entryArg e 7).toNat ≤ 15 ∧ u.ty.lrOn = false)
    (fun _ t => t.ty.lrBase = entryArgs e 4 3 ∧ t.ty.lrLog2 = (entryArg e 7).toNat ∧ t.ty.lrOn = true ∧ t.reg 0x0E0002 = 0#16 ∧
      t.reg 0x0E0003 = 0#16) ∧
  commandRuns (.ledgerRingDisable e) e 0x14 true [3] s (fun _ => entryArg e 3 = 1#16) (fun _ t => t.ty.lrOn = false) ∧
  (∀ r : List Word, commandRuns (.ledgerRingSeed e (.data r)) e 0x14 true (wRange 3 6) s
    (fun u => entryArg e 3 = 2#16 ∧ (u.instAt i).st = .active ∧ (u.instAt i).ledger.tot = [] ∧ (u.instAt i).ledger.inc = [] ∧
      (∀ x ∈ u.gh.streams, x.2.owner ≠ i) ∧ (∀ p ∈ u.ik.progs, p.1 / 2048 ≠ i) ∧ (∀ b ∈ u.boards, b.2.valid = false ∨ b.2.owner ≠ i) ∧
      r.length = 256 ∧ recordDigest r = recDigest r ∧ (fld (wordAt r 0) 12 3 = 2 ∨ fld (wordAt r 0) 12 3 = 3))
    (fun _ t => (t.instAt i).ledger.tot = (seedLedger r).tot ∧ (t.instAt i).ledger.seq = (wordsAt r 5 2 + 1) % 2 ^ 32 ∧
      (t.instAt i).ledger.prev = recDigest r)) ∧
  commandRuns (.snapshot e) e 0x15 true (wRange 3 7) s
    (fun u => 40976 ≤ entryArgs e 6 2 ∧ entryArgs e 3 3 < 2 ^ 40 ∧ u.snapBusy = false)
    (fun _ t => t.snapBusy = true ∧ (t.instAt 0).busy = some { op := 0x15, tag := e.tag, result := 0, wait := .snapshot (entryArgs e 3 3) }) ∧
  commandRuns (.twinSwitch e) e 0x18 true [] s (fun u => u.role = 1 ∧ u.twinReady = true ∧ u.tw.handover = none)
    (fun u t => t.tw.handover = some (boundaryOf 1 (firstPeriodAfter 1 u.now))) ∧
  commandRuns (.twinResync e) e 0x19 true [] s
    (fun u => (u.role = 0 ∨ u.role = 2) ∧ u.linkUp = true ∧ u.tw.peer.known = true ∧ u.tw.peer.role ≤ 1)
    (fun _ t => t.role = 3 ∧ t.ik.coaches = [] ∧ t.gh.streams = [] ∧ t.boards = [] ∧ t.tw.shadow = true) ∧
  commandRuns (.powerStateFull e) e 0x1C true [3] s (fun _ => entryArg e 3 = 0#16)
    (fun u t => t.pw.fullAsked = true ∧ t.pw.parkAsked = false ∧ t.frames = u.frames ∧
      (t.instAt 0).busy = some { op := 0x1C, tag := e.tag, result := 0, wait := .powerFull }) ∧
  commandRuns (.powerStatePark e) e 0x1C true [3] s (fun u => entryArg e 3 = 2#16 ∧ u.inService = false)
    (fun u t => t.pw.parkAsked = true ∧ t.pw.fullAsked = false ∧ t.frames = u.frames ∧
      (t.instAt 0).busy = some { op := 0x1C, tag := e.tag, result := 0, wait := .powerPark }) ∧
  (s.readsRing e.ring.val = false → answers (.powerStateNight e) s fun t => t = s) ∧
  (s.readsRing e.ring.val = true → s.precheck e 0x1C true = none → entryUses e [3] = true → entryArg e 3 = 3#16 → s.nightRefusal = none →
    answers (.powerStateNight e) s fun t => t.pw.wake = .night ∧ t.pw.vcoreEn = false ∧ t.eng = [] ∧ t.tw.gateClosed = true ∧ t.time = s.time)

/-- The instances' commands (R70, R78, R80, R229, R231, R234, R246, R259, R277, R278, R280, R305 to R308): each, read and checked, has its own
effect where its own conditions hold; an opcode no command has is refused.
A command whose condition does not hold leaves the state as it is: the model's choice (log 7).
What it says of log 7, 49, 61, 63, 68, 82, 90, 91, 93, 94, 95, 163, 180, 203 and 206 is the model's choice. -/
def Obligations.InstanceCommands : Prop := ∀ (s : State) (e : Entry), let n := e.ring.val; let a3 := (entryArg e 3).toNat; let i := entryArgs e 3 2;
  (∀ ws : List Word, commandRuns (.programRegister e (.data ws)) e 0x40 false (wRange 3 26) s
    (fun u => a3 < 2048 ∧ entryArgs e 4 3 < 2 ^ 40 ∧ entryArg e 17 ≠ 0#16 ∧ (entryArg e 17).toNat ≤ 16 ∧ (u.prog n a3).valid = false)
    (fun u t => let p := t.prog n a3; p.valid = true ∧ p.size = (entryArg e 17).toNat ∧ p.base % 16 = 0 ∧ p.words = entryArgs e 7 2 ∧
      t.mem = (u.writeMem p.base (ws.take (entryArgs e 7 2))).mem)) ∧
  commandRuns (.programRemove e) e 0x41 false [3] s
    (fun u => a3 < 2048 ∧ (u.prog n a3).valid = true ∧ (∀ x ∈ u.admitted, x.2.inst ≠ n ∨ x.2.prog ≠ a3) ∧
      ∀ j ∈ u.ik.bejobs, j.inst ≠ n ∨ j.prog ≠ a3)
    (fun _ t => (t.prog n a3).valid = false) ∧
  (∀ b tm x0, let x1 := if (openReq b).coached = true ∧ wordAt b 66 ≠ 0#16 then x0 else [];
    commandRuns (.channelOpen e (.data b) (.data tm) (.data x0)) e 0x44 false [3, 4, 5, 6] s
    (fun u => let v := u.blocksRead e b;
      entryArg e 6 = 72#16 ∧ entryArgs e 3 3 < 2 ^ 40 ∧ v.openRefusal n (openReq b) b tm = none ∧ (v.openAdmit n (openReq b) b tm x1).st = .ok)
    (fun u t => let k := u.freeStreamIdx.getD 262144; (t.stream k).valid = true ∧ (t.stream k).owner = n ∧ (t.stream k).form = (openReq b).form)) ∧
  commandRuns (.channelClose e) e 0x45 false [3, 4] s (fun u => u.streamRefusal n i = none)
    (fun u t => match (u.stream i).coach with
      | none => (t.stream i).valid = false
      | some _ => (t.stream i).closing = some (firstPeriodAfter (u.stream i).mul u.now - 1) ∧
          (t.instAt n).busy = some { op := 0x45, tag := e.tag, result := 0, wait := .close i }) ∧
  commandRuns (.fallbackSet e) e 0x46 false [3, 4, 5] s (fun u => u.streamRefusal n i = none ∧ (entryArg e 5).toNat ≤ 3)
    (fun u t => t.stream i = { u.stream i with nextFallback := some ((entryArg e 5).toNat, curPeriod (u.stream i).mul u.now + 1) }) ∧
  (∀ b : List Word, let w := wordAt b 1; let k := (wordAt b 0).toNat + 65536 * fld w 0 2;
    commandRuns (.keySet e (.data b)) e 0x48 false [3, 4, 5] s
      (fun u => let x := u.stream k; let c := tblGet {} u.gh.srtp (x.ctx (w.getLsbD 14));
        entryArgs e 3 3 < 2 ^ 40 ∧ u.streamRefusal n k = none ∧ fld w 8 4 ≤ 5 ∧ fld w 4 3 ≤ 4 ∧ w &&& 0x108C#16 = 0#16 ∧ wordsAt b 30 2 = 0 ∧ x.srtp = true ∧
        (w.getLsbD 14 = true → x.form = 1) ∧ (c.suite = none ∨ c.suite = some (fld w 8 4)))
      (fun u t => let c := tblGet {} t.gh.srtp ((u.stream k).ctx (w.getLsbD 14));
        let d := if w.getLsbD 15 then c.tx else c.rx; let z := suiteSizes (fld w 8 4);
        c.suite = some (fld w 8 4) ∧ c.mkiLen = fld w 4 3 ∧ t.gh.streams = u.gh.streams ∧
          (if w.getLsbD 13 then d.next else d.current) = some {
            key := (wordsOctets ((b.drop 7).take 16)).take z.1, salt := (wordsOctets ((b.drop 23).take 7)).take z.2
            mki := (wordsOctets ((b.drop 2).take 2)).take (fld w 4 3), fromIndex := wordsAt b 4 3 })) ∧
  commandRuns (.streamSync e) e 0x49 false [] s (fun u => (u.instAt n).notices = [])
    (fun u t => t.gh = u.gh ∧ t.ik = u.ik ∧ t.jr = u.jr ∧ t.mem = u.mem ∧ t.reg (portal n 13) = u.reg (portal n 13) + 1) ∧
  (∀ m b f, commandRuns (.boardAlloc e) e 0x4C false [3, 4, 5] s
    (fun u => let g := 128 * a3;
      periodMul (entryArg e 5).toNat = some m ∧ 1 ≤ a3 ∧ a3 ≤ 256 ∧ entryArg e 4 ≠ 0#16 ∧ u.parking = false ∧ u.paceOk = true ∧
      ((List.range 4096).find? fun b => !(u.board b).valid) = some b ∧ u.useOf n 3 + 1 ≤ (u.instAt n).share 3 ∧
      u.homeFor 0 g (a3 * (entryArg e 4).toNat * (48 / m)) = some f)
    (fun _ t => (t.board b).valid = true ∧ (t.board b).owner = n ∧ (t.board b).home = f ∧ (t.board b).len1 = a3 - 1 ∧
      (t.board b).expect = entryArg e 4)) ∧
  commandRuns (.boardExpect e) e 0x4D false [3, 4, 5, 6] s
    (fun u => let d := u.board a3; let g := BitVec.ofNat 32 (entryArgs e 5 2); let cur := BitVec.ofNat 32 (curPeriod ((periodMul d.period).getD 1) u.now);
      u.boardNo n a3 = none ∧ entryArg e 4 ≠ 0#16 ∧ 0 < (g - cur).toInt ∧ u.paceOk = true ∧
      (u.setExpect a3 (entryArg e 4) g).adderOk d.home 0 = true)
    (fun _ t => (t.board a3).expectNext = entryArg e 4 ∧ (t.board a3).switchGen = BitVec.ofNat 32 (entryArgs e 5 2)) ∧
  commandRuns (.boardRelease e) e 0x4E false [3] s
    (fun u => u.boardNo n a3 = none ∧ ∀ x ∈ u.admitted, ∀ w ∈ x.2.boards, w.getLsbD 15 = false ∨ fld w 0 12 ≠ a3)
    (fun u t => let m := (periodMul (u.board a3).period).getD 1;
      tblFind t.ik.releasing a3 = some (boundaryOf m (curPeriod m u.now + 1)) ∧
      (t.instAt n).busy = some { op := 0x4E, tag := e.tag, result := 0, wait := .boardRelease a3 }) ∧
  commandRuns (.beSubmit e) e 0x50 false [3, 4, 5, 6] s
    (fun u => a3 < 2048 ∧ (u.prog n a3).valid = true ∧ u.beMax ≠ 0 ∧ entryArgs e 4 2 ≤ u.beMax ∧ (∀ l ∈ (u.instAt n).limits, l ≠ 0) ∧ u.parking = false)
    (fun u t => t.ik.beNext = u.ik.beNext + 1 ∧ ∃ j ∈ t.ik.bejobs, j.id = u.ik.beNext ∧ j.inst = n ∧ j.prog = a3 ∧ j.budget = entryArgs e 4 2 ∧
      j.issued = none) ∧
  (∀ o : List Byte, commandRuns (.sendFrame e (.data o)) e 0x51 false (wRange 3 15) s
    (fun u => let w := entryArg e 3;
      w &&& 0x97FF#16 = 0#16 ∧ (fld w 13 2 = 1 ∨ fld w 13 2 = 2) ∧ entryArgs e 6 3 < 2 ^ 40 ∧ u.streamRefusal n (entryArgs e 4 2) = none ∧
      entryArgs e 10 6 ≤ u.now + 2 ^ 48 ∧ u.looseRoom = true)
    (fun u t => t.gh.depNext = u.gh.depNext + 1 ∧ ∃ d ∈ t.gh.board, d.order = u.gh.depNext ∧ d.release = entryArgs e 10 6 ∧
      d.stream = entryArgs e 4 2 ∧ d.data = o.take (entryArg e 9).toNat)) ∧
  ∀ op : Byte, (¬ (reservedOp op = true ∧ s.readsRing n = true) → answers (.reservedCommand e op) s fun t => t = s) ∧
    (reservedOp op = true → s.readsRing n = true → answers (.reservedCommand e op) s fun t =>
      t.reg (portal n 5) = s.reg (portal n 5) + 1 ∧ t.mem = s.mem ∧ t.ik = s.ik ∧ t.gh = s.gh ∧ t.boards = s.boards ∧ t.cf = s.cf)

/-- The twin link (R366 to R373, R378, R380, R384, R386, R387, R393, R394): what each message and event of the link does to the device's role, its
view of its twin and the state it holds; with the link down no message counts.
A command whose condition does not hold leaves the state as it is: the model's choice (log 7).
What it says of log 7, 122, 123, 124, 125, 126, 127, 128, 129, 133, 139, 140, 142, 161 and 188 is the model's choice. -/
def Obligations.TwinLink : Prop := ∀ s : State,
  (s.linkUp = false → (∀ x, answers (.hello x) s fun t => t = s) ∧ (∀ a b c d f m, answers (.beat a b c d f m) s fun t => t = s) ∧
    (∀ a b, answers (.time a b) s fun t => t = s) ∧ (∀ x, answers (.state x) s fun t => t = s) ∧
    (∀ c h w, answers (.coachState c h w) s fun t => t = s) ∧ (∀ m, answers (.stateDone m) s fun t => t = s) ∧ answers .linkDown s fun t => t = s) ∧
  (s.linkUp = true →
    (∀ x : Hello, answers (.hello x) s fun t => t.tw.hello = some x ∧ t.tw.peer.known = true ∧ t.tw.peer.role = x.role ∧ t.mem = s.mem ∧
      (s.seeksTwin = true → s.tw.pairRetryAt = none → s.reg 0x0F0003 ≠ 3#16 →
        (∀ r, s.pairRefusal x = some r → t.reg 0x0F0003 = BitVec.ofNat 16 r ∧ t.bit 0x0F0002 8 = true ∧ t.role = s.role) ∧
        (s.pairRefusal x = none → t.tw.paired = true ∧
          if s.hello.leadsOver x = true then t.role = (if s.mayLead = true ∨ s.role = 1 then 1 else 0) else t.role = 3))) ∧
    (∀ a b c d f m, answers (.beat a b c d f m) s fun t => t.tw.peer.role = b % 4 ∧ t.tw.peer.sync = c ∧ t.tw.peer.eligible = d ∧
      t.tw.peer.frames = f ∧ t.tw.peer.mseq = m ∧ t.tw.peer.known = true ∧ t.mem = s.mem ∧ t.time = s.time) ∧
    (∀ tx rx, answers (.time tx rx) s fun t => t.tw.timeRx = t.now ∧ coreKept s t ∧ t.time = s.time ∧
      (s.leads = true ∨ s.tw.timeTx = none → t.csr = s.csr) ∧
      ∀ t0, s.leads = false → s.tw.timeTx = some t0 → let a := t.tw.timeRx; let delay := (((a : Int) - t0) - ((tx : Int) - rx)) / 2 - s.linkAsymmetry;
        fld (t.reg 0x010018) 12 2 = if ((a : Int) - (tx + delay)).natAbs ≤ 4 * 2 ^ 48 / 10 ^ 9 then 2 else 1) ∧
    (s.role ≠ 3 → ∀ x, answers (.state x) s fun t => t = s.heard) ∧
    (s.role = 3 → (∀ a ws, answers (.state (.memory a ws)) s fun t => t.mem = (s.writeMem a ws).mem ∧ t.eng = s.eng) ∧
      (∀ i y, answers (.state (.stream i y)) s fun t => t.stream i = y ∧ coreKept s t) ∧
      (∀ c k, answers (.state (.coach c k)) s fun t => t.coach c = k.asInstalled ∧ coreKept s t)) ∧
    (∀ c h ws, s.leads = false → (s.coach c).valid = true → answers (.coachState c h ws) s fun t => (t.coach c).incoming = some (h, ws) ∧
      (t.coach c).unprotected = false ∧ coreKept s t) ∧
    (∀ m, s.role = 3 → (∀ r, s.tw.mseqRx = some r → (BitVec.ofNat 32 m - BitVec.ofNat 32 r).toInt ≤ 0) → answers (.stateDone m) s fun t =>
      t.role = 2 ∧ t.sync = true ∧ t.bit 0x0F0002 10 = true ∧ t.mem = s.mem) ∧
    (answers .linkDown s fun t => t.linkUp = false ∧ t.tw.peer.known = false ∧ t.tw.handover = none ∧ t.mem = s.mem ∧
      (s.role = 2 → s.sync = true → s.hbSilent = false → t.role = 2 ∧ t.sync = false ∧ t.bit 0x0F0002 2 = true) ∧
      (s.role = 1 → s.hbSilent = true → t.role = 0) ∧ (s.role = 3 → t.role = 3))) ∧
  (let due := s.seeksTwin = true ∧ usPassed s.tw.helloAt s.time 1000 = true;
    (¬ due → answers .helloSend s fun t => t = s) ∧
    (due → answers .helloSend s fun t => t.tw.helloAt = s.time ∧ coreKept s t ∧
      ∃ l, t.out = if s.linkUp = true ∧ s.tw.gateClosed = false then .link 1 l 0 s.hello.body :: s.out else s.out)) ∧
  (let due := s.linkUp = true ∧ usPassed s.tw.beatAt s.time 10 = true;
    (¬ due → answers .beatSend s fun t => t = s) ∧
    (due → answers .beatSend s fun t => t.tw.beatAt = s.time ∧ coreKept s t ∧ (s.tw.gateClosed = false → ∃ l b, t.out = .link 2 l 0 b :: s.out))) ∧
  (let due := s.linkUp = true ∧ ∀ at_, s.tw.timeTx = some at_ → usPassed at_ s.time 1000 = true;
    (¬ due → answers .timeSend s fun t => t = s) ∧
    (due → answers .timeSend s fun t => t.tw.timeTx = some t.now ∧ coreKept s t ∧
      (s.tw.gateClosed = false → ∃ l, t.out = .link 3 l 0 [t.now, s.tw.timeRx] :: s.out))) ∧
  (let refused := fun t : State => coreKept s t ∧ t.reg 0x0F0003 = 4#16 ∧ t.bit 0x0F0002 8 = true ∧ t.tw.pairRetryAt = some (s.now + 2 ^ 48);
    s.tw.pairRetryAt = none → answers .pairRetry s fun t => if s.untrained = true then refused t else t = s) ∧
  (∀ at_, s.tw.pairRetryAt = some at_ →
    (s.now < at_ → answers .pairRetry s fun t => t = s) ∧
    (at_ ≤ s.now → s.linkUp = false → answers .pairRetry s fun t => coreKept s t ∧
      if s.untrained = true then t.reg 0x0F0003 = 4#16 ∧ t.bit 0x0F0002 8 = true ∧ t.tw.pairRetryAt = some (s.now + 2 ^ 48) else t = s) ∧
    ∀ x, at_ ≤ s.now → s.linkUp = true → s.tw.hello = some x → s.seeksTwin = true → answers .pairRetry s fun t =>
      (∀ r, s.pairRefusal x = some r → t.reg 0x0F0003 = BitVec.ofNat 16 r ∧ t.bit 0x0F0002 8 = true ∧ t.role = s.role) ∧
      (s.pairRefusal x = none → t.tw.paired = true ∧ t.tw.pairRetryAt = none ∧
        if s.hello.leadsOver x = true then t.role = (if s.mayLead = true ∨ s.role = 1 then 1 else 0) else t.role = 3)) ∧
  (answers .heartbeatEdge s fun t => t = { s with tw := t.tw } ∧ t.tw.peer.hbSeen = true ∧ t.tw.peer.lastHb = s.now) ∧
  (s.tw.peer.hbSeen = false ∨ s.hbSilent = false → answers .hbFault s fun t => t = s) ∧
  (s.tw.peer.hbSeen = true → s.hbSilent = true →
    (s.role = 2 → answers .hbFault s fun t => if s.linkSilent = true then t = s
      else t.bit 0x0F0002 3 = true ∧ t.sync = s.sync ∧ t.tw.peer.hbSeen = false) ∧
    (s.role = 1 → answers .hbFault s fun t => t.tw.peer.hbSeen = false ∧ t.role = if s.linkUp = true then 1 else 0)) ∧
  (if s.linkUp = true ∧ fld (s.reg 0x0F0000) 7 2 = 2 then answers .laneDown s fun t =>
      fld (t.reg 0x0F0000) 7 2 = 1 ∧ t.bit 0x0F0002 9 = true ∧ coreKept s t
    else answers .laneDown s fun t => t = s) ∧
  (if s.linkUp = true then answers .laneReturn s fun t => fld (t.reg 0x0F0000) 7 2 = 2 ∧ t.tw.mirrorHold = false ∧ coreKept s t
    else answers .laneReturn s fun t => t = s) ∧
  (∀ (four : Bool) (r : Fin 4) (at_ : Nat),
    (s.linkUp = true ∨ s.domainOn 31 = false → answers (.linkUp four r at_) s fun t => t = s) ∧
    (s.linkUp = false → s.domainOn 31 = true → answers (.linkUp four r at_) s fun t => t.linkUp = true ∧
      fld (t.reg 0x0F0000) 7 2 = (if four = true then 2 else 1) ∧ t.mem = s.mem ∧ t.reg 0x0F0003 = 0#16 ∧ (four = false → t.bit 0x0F0002 9 = true) ∧
      (s.role = 1 → r.val = 1 → at_ < s.regs 0x0F0008 6 → t.role = 3 ∧ t.bit 0x0F0002 11 = true))) ∧
  (let due := s.role = 2 ∧ s.sync = false ∧ s.linkUp = true ∧ s.linkFits = true;
    (¬ due → answers .resyncStart s fun t => t = s) ∧
    (due → answers .resyncStart s fun t => t.role = 3 ∧ t.ik.coaches = [] ∧ t.gh.streams = [] ∧ t.boards = []))

/-- The mirror stream, digests, handover and takeover (R374 to R376, R379, R382, R385, R387 to R392, R452): messages apply in MSEQ order; a
synced and eligible SECONDARY takes over when its twin is fenced or silent; at H the two devices exchange roles; a pair whose copies differ checkstops.
A command whose condition does not hold leaves the state as it is: the model's choice (log 7).
What it says of log 7, 57, 67, 123, 130, 131, 134, 135, 136 and 138 is the model's choice. -/
def Obligations.TwinMirror : Prop := ∀ s : State,
  (s.linkUp = false → (∀ m a p i l d, answers (.frame m a p i l d) s fun t => t = s) ∧ (∀ c, answers (.commit c) s fun t => t = s) ∧
    (∀ m d a b, answers (.decision m d a b) s fun t => t = s) ∧ (∀ q, answers (.cut (some q)) s fun t => t = s) ∧
    (∀ l, answers (.digest l) s fun t => t = s) ∧ (∀ n m, answers (.ledger n m) s fun t => t = s) ∧
    (∀ m h, answers (.yieldMessage m h) s fun t => t = s) ∧ answers .fenced s fun t => t = s) ∧
  (s.linkUp = true →
    (∀ m, s.inOrder m = false → (∀ a p i l d, answers (.frame m a p i l d) s fun t => t = s.heard) ∧
      (∀ d a b, answers (.decision m d a b) s fun t => t = s.heard) ∧ (∀ i, answers (.cut (some (m, i))) s fun t => t = s.heard) ∧
      (∀ h, answers (.yieldMessage m h) s fun t => t = s.heard) ∧ ∀ c : Commit, c.mseq = m → answers (.commit c) s fun t => t = s.heard) ∧
    (∀ m, s.inOrder m = true →
      (∀ a (p : Fin 8) i l d, let x := s.stream i; let cur := curPeriod x.mul a; let n := x.aheadOf cur (beNat d 4 4);
        let g := ((cur : Int) + n).toNat; let at_ := x.slotAt l g; let ps := rtpParts d;
        answers (.frame m a p i l d) s fun t => t.tw.mseqRx = some m ∧ t.tw.lastFrame = a ∧
          (x.ssrcChk = false → x.srtp = false → x.form < 2 → ¬ (64 ≤ octAt d 1 % 128 ∧ octAt d 1 % 128 ≤ 95) → 0 < n →
            n < (2 ^ x.ringLog2 : Int) → a < boundaryOf x.mul g → s.slotHas at_ g = false → ps.data.length ≤ 8 * x.slotUnits →
            t.mem = (s.writeMem at_ (ps.head ++ toWords a 6 ++ toWords g 2 ++ ps.data)).mem)) ∧
      (∀ c : Commit, c.mseq = m → answers (.commit c) s fun t => t.tw.mseqRx = some m ∧ t.time = s.time ∧
        (c.entry.ring.val = 0 → t.tw.lastTag = c.entry.tag) ∧
        (c.entry.ring.val ≠ 0 → t.reg (portal c.entry.ring 5) = c.head ∧ t.reg (portal c.entry.ring 13) = c.tail) ∧
        (c.op = 0x46#8 → s.streamRefusal c.entry.ring (entryArgs c.entry 3 2) = none → (entryArg c.entry 5).toNat ≤ 3 →
          (t.stream (entryArgs c.entry 3 2)).nextFallback =
            some ((entryArg c.entry 5).toNat, curPeriod (s.stream (entryArgs c.entry 3 2)).mul (c.time % 2 ^ 96) + 1))) ∧
      (∀ a b c r g, answers (.decision m (.move c r g) a b) s fun t => t.tw.mseqRx = some m ∧ (t.coach c).moveTo = some (r, g)) ∧
      (∀ a b k f g, answers (.decision m (.rehome k f g) a b) s fun t => t.tw.mseqRx = some m ∧ (t.board k).plan = some (f, g)) ∧
      (∀ i, answers (.cut (some (m, i))) s fun t => t.tw.mseqRx = some m ∧ t.tw.lastCut = i ∧
        (s.role = 2 → boundaryOf 1 i + usUnits 50 < s.now → t.sync = false) ∧
        ∀ c, (s.coach c).valid = true → i % (s.coach c).mul = 0 → boundaryOf 1 i + usUnits 1 < s.now →
          (t.coach c).lateCut = some (i / (s.coach c).mul)) ∧
      (∀ h, s.role = 2 → s.sync = true → answers (.yieldMessage m h) s fun t => t.tw.handover = some h ∧ t.regs 0x0F0008 6 = s.now)) ∧
    (s.compares = false → ∀ l, answers (.digest l) s fun t => t = s.heard) ∧
    (s.compares = true → ∀ l, answers (.digest l) s fun t => t.mem = s.mem ∧
      ∀ d ∈ t.tw.digests, d.sent = true → ∀ x ∈ s.tw.twinDigests ++ l, d.same x = false) ∧
    (∀ (n : Fin 512) (m : LedgerMsg), answers (.ledger n m) s fun t => coreKept s t ∧
      (tblGet none s.tw.ledgerWait n = none → tblGet none t.tw.ledgerTwin n = some m) ∧
      ∀ w, tblGet none s.tw.ledgerWait n = some (m.seq, w) → tblGet none t.tw.ledgerWait n = none ∧
        (w ≠ m.digest → s.leads = false ∨ (s.instAt n).ledger.lost = true → t.bit 0x0F0002 6 = true ∧
          tblGet none t.tw.adopt n = some { tot := m.tot, prev := m.digest, seq := (m.seq + 1) % 2 ^ 32 })) ∧
    (if s.mayTakeOver = true then answers .fenced s fun t => t.role = 1 ∧ t.bit 0x0F0002 0 = true ∧ t.tw.shadow = true ∧ t.gh.standby = []
      else answers .fenced s fun t => t = s.heard)) ∧
  (if s.mayTakeOver = true ∧ s.hbSilent = true ∧ s.linkSilent = true then answers .takeover s fun t =>
      t.role = 1 ∧ t.bit 0x0F0002 0 = true ∧ t.tw.shadow = true ∧ t.gh.standby = []
    else answers .takeover s fun t => t = s) ∧
  (if s.role = 1 ∧ boundaryOf 1 (s.tw.lastCut + 1) ≤ s.now then answers (.cut none) s fun t => t.tw.lastCut = s.tw.lastCut + 1 ∧ coreKept s t
    else answers (.cut none) s fun t => t = s) ∧
  (if s.sync = true ∧ boundaryOf 1 (s.tw.lastCut + 1) + usUnits 50 < s.now then answers .cutTimeout s fun t =>
      coreKept s t ∧ (s.role = 2 → t.sync = false) ∧ (s.role ≠ 2 → t = s)
    else answers .cutTimeout s fun t => t = s) ∧
  (answers .digestTimeout s fun t => t.mem = s.mem ∧ (∀ d ∈ t.tw.digests, s.now < d.due) ∧
    ((∃ d ∈ s.tw.digests, d.due ≤ s.now) → t.bit 0x0F0002 4 = true)) ∧
  (s.tw.handover = none → answers .handover s fun t => t = s) ∧
  (∀ h, s.tw.handover = some h → (s.now < h → answers .handover s fun t => t = s) ∧
    (h ≤ s.now → (s.role = 1 → s.twinReady = true → answers .handover s fun t => t.role = 2 ∧ t.sync = true ∧ t.tw.shadow = true ∧
        t.tw.handover = none ∧ t.bit 0x0F0002 1 = true) ∧
      (s.role = 2 → s.mayTakeOver = true → answers .handover s fun t => t.role = 1 ∧ t.tw.shadow = false ∧ t.tw.handover = none ∧
        t.bit 0x0F0002 1 = true) ∧
      (s.role = 1 ∧ s.twinReady = false ∨ s.role = 2 ∧ s.mayTakeOver = false → answers .handover s fun t => t.role = s.role ∧
        t.sync = s.sync ∧ t.tw.shadow = s.tw.shadow ∧ t.tw.handover = none ∧ t.mem = s.mem))) ∧
  (if s.leads = true ∧ s.tw.shadow = true then answers .boardSwitch s fun t => t.tw.shadow = false ∧ t.gh.kept = []
    else answers .boardSwitch s fun t => t = s) ∧
  ∀ p : Fin 4, if s.domainOn (24 + p.val) = true ∧ tblGet false s.pw.unchecked p.val = false then
      answers (.lockstepMismatch p) s fun t => (t.engAt (stewardPair p)).run = .checkstop ∧ t.tw.kickOff = true ∧ t.jr.npRecord ≠ none ∧
        (s.pairActive p = true → t.bit 0x380000 12 = true) ∧ t.mem = s.mem ∧ ∀ g, g ≠ stewardPair p → t.engAt g = s.engAt g
    else answers (.lockstepMismatch p) s fun t => t = s

/-- The debug port (R466 to R476, R479): without power it answers nothing, closed it answers CLOSED; while a halt or a step waits no request is
taken, and one that waits 20 µs ends at the next edge; a halt, a resume, a step, an access to
registers or memory, a breakpoint or a watchpoint acts on the selected engine and is answered.
A command whose condition does not hold leaves the state as it is: the model's choice (log 7).
What it says of log 7, 37, 42, 145, 146, 147, 148, 149, 150, 153 and 154 is the model's choice. -/
def Obligations.DebugPort : Prop := ∀ s : State,
  (∀ c ∈ ([.halt, .resume] : List Instr), (s.domainOn 29 = false → answers c s fun t => t = s) ∧
    (s.domainOn 29 = true → s.pw.dbgWait = none → s.params 11 % 2 = 0 → answers c s fun t =>
      t.out = .debug 1 [] :: s.out ∧ t.bit 0x3C0001 0 = true ∧ coreKept s t)) ∧
  (∀ w a m d n h, ∀ c ∈ ([.select w, .step w, .readReg w, .writeReg w d, .readMem a n h, .writeMem a d, .setBp w a, .setWp w a m] : List Instr),
    (s.domainOn 29 = false → answers c s fun t => t = s) ∧
    (s.domainOn 29 = true → s.pw.dbgWait = none → s.params 11 % 2 = 0 → answers c s fun t =>
      t.out = .debug 1 [] :: s.out ∧ t.bit 0x3C0001 0 = true ∧ coreKept s t)) ∧
  (answers .requestAbandon s fun t => t = s) ∧
  (s.domainOn 29 = false → answers .status s fun t => t = s) ∧
  (s.domainOn 29 = true → s.pw.dbgWait = none → answers .status s fun t => ∃ w, t = { s with out := .debug 0 [s.dbStatus, w] :: s.out }) ∧
  (s.pw.dbgWait ≠ none → (∀ c ∈ ([.halt, .resume, .status] : List Instr), answers c s fun t => t = s) ∧
    (∀ w a m d n h, ∀ c ∈ ([.select w, .step w, .readReg w, .writeReg w d, .readMem a n h, .writeMem a d, .setBp w a, .setWp w a m] : List Instr),
      answers c s fun t => t = s) ∧
    (s.bit 0x010018 10 = false → ∀ pps, answers (.tcxoEdge pps) s fun t => usPassed s.pw.dbgWaitAt t.time 20 = true → t.pw.dbgWait = none)) ∧
  (s.domainOn 29 = true → s.params 11 % 2 = 1 → s.pw.dbgWait = none →
    (∀ w e, fld w 8 7 = 0 → engOfId w = some e → s.dbgPowered e = true → answers (.select w) s fun t =>
      t = { s with pw := { s.pw with dbgSel := some e.val }, out := .debug 0 [] :: s.out }) ∧
    (s.dbgEngine = none → (∀ c ∈ ([.halt, .resume] : List Instr), answers c s fun t => t = { s with out := .debug 5 [] :: s.out }) ∧
      ∀ w a m d, ∀ c ∈ ([.step w, .readReg w, .writeReg w d, .setBp w a, .setWp w a m] : List Instr),
        answers c s fun t => t = { s with out := .debug 5 [] :: s.out }) ∧
    (∀ e, s.dbgEngine = some e → let x := s.engAt e;
      (x.run = .halted → answers .halt s (fun t => t = { s with out := .debug 0 [BitVec.ofNat 16 x.dbgCause] :: s.out }) ∧
        answers .resume s (fun t => t.engAt e = x.resumed ∧ t.out = .debug 0 [] :: s.out ∧ t.mem = s.mem) ∧
        (∀ n : Word, n ≠ 0#16 → answers (.step n) s fun t => (t.engAt e).run = .running ∧ (t.engAt e).stepLeft = n.toNat ∧
          (t.engAt e).pc = x.dpc ∧ t.pw.dbgWait = some e.val ∧ t.bit 0x3C0000 15 = true ∧ t.mem = s.mem) ∧
        (∀ r : Word, dbgRegWords e (fld r 12 4) (fld r 0 12) ≠ 0 → answers (.readReg r) s fun t =>
          t = { s with out := .debug 0 (dbgRegRead e x (fld r 12 4) (fld r 0 12)) :: s.out }) ∧
        (∀ (r : Word) (d : List Word), let c := fld r 12 4; let n := fld r 0 12;
          c < 8 → dbgRegWords e c n ≠ 0 → d.length = dbgRegWords e c n → dbgRegBars c n d = false → answers (.writeReg r d) s fun t =>
            (t.engAt e).regs = (dbgRegWrite e x c n d).regs ∧ t.bit 0x3C0000 15 = true ∧ t.mem = s.mem)) ∧
      (x.run = .running → x.slot = false → answers .halt s fun t => (t.engAt e).run = .halted ∧ (t.engAt e).dpc = x.pc ∧
        (t.engAt e).dbgCause = 1 ∧ (t.engAt e).regs = x.regs ∧ t.bit 0x3C0000 15 = true ∧ t.out.head? = some (.debug 0 [1#16]) ∧ t.mem = s.mem) ∧
      (x.run ≠ .halted → answers .resume s (fun t => t = { s with out := .debug 2 [] :: s.out }) ∧
        ∀ n : Word, n ≠ 0#16 → answers (.step n) s fun t => t = { s with out := .debug 2 [] :: s.out }) ∧
      (∀ (w : Word) (a : Addr), fld w 2 12 = 0 → answers (.setBp w a) s fun t => t.out = .debug 0 [] :: s.out ∧ t.mem = s.mem ∧
        tblGet {} (t.engAt e).bps (fld w 0 2) =
          { armed := w.getLsbD 15, lo := a.toNat, hi := if w.getLsbD 14 = true then x.ctrl.asid.toNat + 1 else 0 }) ∧
      (∀ (w : Word) (a m : Addr), fld w 1 11 = 0 → w.getLsbD 14 = false → (w.getLsbD 15 = true → fld w 12 2 ≠ 0) → answers (.setWp w a m) s fun t =>
        t.out = .debug 0 [] :: s.out ∧ t.mem = s.mem ∧
        tblGet {} (t.engAt e).wps (fld w 0 1) = { armed := w.getLsbD 15, lo := a.toNat, hi := m.toNat, kind := fld w 12 2 })) ∧
    (∀ (a : Addr) (n : Nat) (h : Option (List Word)), a.getLsbD 47 = false →
      (n = 0 ∨ 256 < n → answers (.readMem a n h) s fun t => t = { s with out := .debug 4 [] :: s.out }) ∧
      (1 ≤ n → n ≤ 256 → (∀ i < n, regionOf (a.toNat + i) = .dram ∧ backed s (a.toNat + i) = true ∧ isBad s (a.toNat + i) = false) →
        answers (.readMem a n h) s fun t => coreKept s t ∧ t.out = .debug 0 ((List.range n).map fun i => s.readMem (a.toNat + i)) :: s.out)) ∧
    (∀ (a : Addr) (d : List Word), a.getLsbD 47 = false → d ≠ [] → d.length ≤ 256 →
      (∀ i < d.length, regionOf (a.toNat + i) = .dram ∧ backed s (a.toNat + i) = true) → answers (.writeMem a d) s fun t =>
        (∀ i < d.length, t.readMem (a.toNat + i) = wordAt d i) ∧ (∀ b, b < a.toNat ∨ a.toNat + d.length ≤ b → t.readMem b = s.readMem b) ∧
        t.bit 0x3C0000 15 = true ∧ t.out.head? = some (.debug 0 [])))

/-- Boundary scan and the SMBus target (R480, R503): each instruction of the test access port shifts its register; EXTEST, CLAMP and HIGHZ take
the balls and stop the heartbeat until the next restart; a word read of the target's address answers its register, low octet first, with a check
octet where it is asked for, the Alert Response Address the target's own where it has cause, and any other address nothing; a write is not
acknowledged.
What it says of log 151, 152, 159 and 210 is the model's choice. -/
def Obligations.ScanAndSmbus : Prop := ∀ s : State,
  (answers .bypass s fun t => t.pw.scan = .bypass ∧ t.pw.scanTaken = s.pw.scanTaken ∧ t.out = .scan [false] :: s.out ∧ t.tw = s.tw ∧ coreKept s t) ∧
  (answers .idcode s fun t => t.pw.scan = .idcode ∧ t.tw = s.tw ∧ coreKept s t ∧
    t.out = .scan ((List.range 32).map fun i => (s.regs 0x00000C 2).testBit i) :: s.out) ∧
  (∀ l i, (answers (.samplePreload l i) s fun t => t.pw.scan = .sample ∧ t.pw.boundary = i ∧ t.pw.scanTaken = s.pw.scanTaken ∧
      t.out = .scan l :: s.out ∧ t.tw = s.tw ∧ coreKept s t) ∧
    answers (.extest l i) s fun t => t.pw.scan = .extest ∧ t.pw.boundary = i ∧ t.pw.scanTaken = true ∧ t.tw.hbStopped = true ∧
      t.out = .scan l :: s.out ∧ coreKept s t) ∧
  (answers .clamp s fun t => t.pw.scan = .clamp ∧ t.pw.scanTaken = true ∧ t.tw.hbStopped = true ∧ t.pw.boundary = s.pw.boundary ∧ coreKept s t) ∧
  (answers .highz s fun t => t.pw.scan = .highz ∧ t.pw.scanTaken = true ∧ t.tw.hbStopped = true ∧ t.pw.boundary = s.pw.boundary ∧ coreKept s t) ∧
  (answers .trstN s fun t => t = { s with pw := { s.pw with scan := .idcode } }) ∧
  (answers .smbusWrite s fun t => t = { s with out := .smbus none :: s.out }) ∧
  (∀ x : SmbusRead, x.address = 0x0C#7 → answers (.readWord x) s fun t =>
    if s.smbAlert = true then ∃ l, t = { s with out := .smbus (some ((smbAddress ++ 0#1) :: l)) :: s.out } ∧ (x.pec = false → l = []) else t = s) ∧
  (∀ x : SmbusRead, x.address ≠ 0x0C#7 → x.address ≠ smbAddress → answers (.readWord x) s fun t => t = s) ∧
  ∀ x : SmbusRead, x.address = smbAddress →
    (smbusReg x.code.toNat = none → answers (.readWord x) s fun t => t = { s with out := .smbus none :: s.out }) ∧
    ∀ off, smbusReg x.code.toNat = some off → let w := if s.pw.wake = .night ∧ x.code = 2#8 then BitVec.ofInt 16 x.sensor3 else csrPeek s off;
      answers (.readWord x) s fun t => ∃ l, t = { s with out := .smbus (some (w.extractLsb' 0 8 :: w.extractLsb' 8 8 :: l)) :: s.out } ∧
        l.length = (if x.pec = true then 1 else 0)

/-- Every step keeps the memory's canonical form: addresses strictly rising, and no entry equal to what an unlisted byte reads as. Whatever command stands
at the front, and whatever state the device is in.
What it says of log 5 is the model's choice. -/
def Obligations.MemoryKeepsItsForm : Prop := ∀ s t : State, Memory.wf s.mem = true → step s = .next t → Memory.wf t.mem = true
end

