-- ==== Sys2Proof/Laws/Table.lean ====
section
/-! SUPPORT. What reading and writing a sparse table do, and that writing keeps the canonical form. -/
namespace Sys2Proof

variable {α : Type}

theorem tblFind_drop_self (t : Tbl α) (k : Nat) : tblFind (tblDrop t k) k = none := by
  induction t with
  | nil => rfl
  | cons p t ih => obtain ⟨j, v⟩ := p; by_cases h : j = k <;> simp [tblDrop, tblFind, h, ih]

theorem tblFind_drop_ne (t : Tbl α) {k i : Nat} (h : i ≠ k) : tblFind (tblDrop t k) i = tblFind t i := by
  induction t with
  | nil => rfl
  | cons p t ih =>
    obtain ⟨j, v⟩ := p
    by_cases hj : j = k
    · subst hj; simp [tblDrop, tblFind, ih, Ne.symm h]
    · simp [tblDrop, tblFind, hj, ih]

theorem tblFind_insert_ne (t : Tbl α) (k : Nat) (v : α) {i : Nat} (h : i ≠ k) :
    tblFind (tblInsert t k v) i = tblFind t i := by
  induction t with
  | nil => simp [tblInsert, tblFind, Ne.symm h]
  | cons p t ih =>
    obtain ⟨j, w⟩ := p
    by_cases hk : k < j
    · simp [tblInsert, tblFind, hk, Ne.symm h]
    · simp [tblInsert, tblFind, hk, ih]

theorem tblFind_insert_self (t : Tbl α) (k : Nat) (v : α) (h : tblFind t k = none) :
    tblFind (tblInsert t k v) k = some v := by
  induction t with
  | nil => simp [tblInsert, tblFind]
  | cons p t ih =>
    obtain ⟨j, w⟩ := p
    by_cases hj : j = k
    · simp [tblFind, hj] at h
    · simp only [tblFind, hj, if_false] at h
      by_cases hk : k < j
      · simp [tblInsert, tblFind, hk]
      · simp [tblInsert, tblFind, hk, hj, ih h]

variable [DecidableEq α]

/-- A table reads back what was written. -/
@[simp] theorem tblGet_set_self (d : α) (t : Tbl α) (k : Nat) (v : α) : tblGet d (tblSet d t k v) k = v := by
  unfold tblGet tblSet
  split
  · rename_i h; simp [tblFind_drop_self, h]
  · simp [tblFind_insert_self _ _ _ (tblFind_drop_self t k)]

/-- Writing one key leaves every other key as it was. -/
theorem tblGet_set_ne (d : α) (t : Tbl α) {k i : Nat} (v : α) (h : i ≠ k) :
    tblGet d (tblSet d t k v) i = tblGet d t i := by
  unfold tblGet tblSet
  split
  · rw [tblFind_drop_ne t h]
  · rw [tblFind_insert_ne _ _ _ h, tblFind_drop_ne t h]

/-- What a key reads after one key was written. -/
theorem tblGet_set (d : α) (t : Tbl α) (k i : Nat) (v : α) :
    tblGet d (tblSet d t k v) i = if i = k then v else tblGet d t i := by
  by_cases h : i = k
  · subst h; simp
  · simp [h, tblGet_set_ne d t v h]

omit [DecidableEq α] in
theorem tblDrop_drop (t : Tbl α) (k : Nat) : tblDrop (tblDrop t k) k = tblDrop t k := by
  induction t with
  | nil => rfl
  | cons p t ih => obtain ⟨j, v⟩ := p; by_cases h : j = k <;> simp [tblDrop, h, ih]

omit [DecidableEq α] in
theorem tblDrop_insert (t : Tbl α) (k : Nat) (v : α) : tblDrop (tblInsert t k v) k = tblDrop t k := by
  induction t with
  | nil => simp [tblInsert, tblDrop]
  | cons p t ih =>
    obtain ⟨j, w⟩ := p
    by_cases hk : k < j
    · simp [tblInsert, tblDrop, hk]
    · by_cases hj : j = k <;> simp [tblInsert, tblDrop, hk, hj, ih]

/-- Of two writes of one key the later stands. -/
theorem tblSet_set (d : α) (t : Tbl α) (k : Nat) (v w : α) : tblSet d (tblSet d t k v) k w = tblSet d t k w := by
  have h : tblDrop (tblSet d t k v) k = tblDrop t k := by
    unfold tblSet
    split
    · exact tblDrop_drop t k
    · rw [tblDrop_insert, tblDrop_drop]
  simp only [tblSet] at h ⊢
  rw [h]

/-- Every key of a table lies above a bound. -/
def tblAbove (b : Nat) : Tbl α → Prop
  | [] => True
  | (j, _) :: _ => b < j

theorem tblWf_cons (d : α) (j : Nat) (v : α) (t : Tbl α) :
    tblWf d ((j, v) :: t) = true ↔ v ≠ d ∧ tblAbove j t ∧ tblWf d t = true := by
  cases t with
  | nil => simp [tblWf, tblAbove]
  | cons p t => obtain ⟨k, w⟩ := p; simp [tblWf, tblAbove, and_assoc]

omit [DecidableEq α] in
theorem tblAbove_mono {b c : Nat} (h : b ≤ c) (t : Tbl α) (ht : tblAbove c t) : tblAbove b t := by
  cases t with
  | nil => trivial
  | cons p t => exact Nat.lt_of_le_of_lt h ht

theorem tblWf_above (d : α) {b : Nat} (t : Tbl α) (hb : tblAbove b t) (ht : tblWf d t = true) (k : Nat) :
    tblAbove b (tblDrop t k) ∧ tblWf d (tblDrop t k) = true := by
  induction t generalizing b with
  | nil => exact ⟨trivial, rfl⟩
  | cons p t ih =>
    obtain ⟨j, v⟩ := p
    obtain ⟨hv, ha, hw⟩ := (tblWf_cons d j v t).1 ht
    by_cases hj : j = k
    · simp only [tblDrop, hj, if_true]
      exact ih (tblAbove_mono (Nat.le_of_lt hb) t ha) hw
    · simp only [tblDrop, hj, if_false]
      have := ih ha hw
      exact ⟨hb, (tblWf_cons d j v _).2 ⟨hv, this.1, this.2⟩⟩

theorem tblWf_drop (d : α) (t : Tbl α) (ht : tblWf d t = true) (k : Nat) : tblWf d (tblDrop t k) = true := by
  cases t with
  | nil => rfl
  | cons p t =>
    obtain ⟨j, v⟩ := p
    obtain ⟨hv, ha, hw⟩ := (tblWf_cons d j v t).1 ht
    by_cases hj : j = k
    · simpa [tblDrop, hj] using (tblWf_above d t ha hw k).2
    · have := tblWf_above d t ha hw k
      simp only [tblDrop, hj, if_false]
      exact (tblWf_cons d j v _).2 ⟨hv, this.1, this.2⟩

theorem tblWf_insert (d : α) (t : Tbl α) (k : Nat) (v : α) (hv : v ≠ d) (hk : tblFind t k = none)
    (ht : tblWf d t = true) : tblWf d (tblInsert t k v) = true ∧ ∀ b, b < k → tblAbove b t → tblAbove b (tblInsert t k v) := by
  induction t with
  | nil => exact ⟨by simp [tblInsert, tblWf, hv], fun b hb _ => hb⟩
  | cons p t ih =>
    obtain ⟨j, w⟩ := p
    obtain ⟨hw, ha, ht'⟩ := (tblWf_cons d j w t).1 ht
    have hne : j ≠ k := by intro h; simp [tblFind, h] at hk
    have hk' : tblFind t k = none := by simpa [tblFind, hne] using hk
    by_cases h : k < j
    · simp only [tblInsert, h, if_true]
      exact ⟨(tblWf_cons d k v _).2 ⟨hv, h, ht⟩, fun b hb _ => hb⟩
    · simp only [tblInsert, h, if_false]
      obtain ⟨i1, i2⟩ := ih hk' ht'
      exact ⟨(tblWf_cons d j w _).2 ⟨hw, i2 j (by omega) ha, i1⟩, fun b _ hb' => hb'⟩

/-- Writing a key keeps the canonical form. -/
theorem tblWf_set (d : α) (t : Tbl α) (k : Nat) (v : α) (ht : tblWf d t = true) : tblWf d (tblSet d t k v) = true := by
  unfold tblSet
  split
  · exact tblWf_drop d t ht k
  · rename_i h
    exact (tblWf_insert d _ k v h (tblFind_drop_self t k) (tblWf_drop d t ht k)).1

theorem tblAbove_filter (d : α) (f : Nat × α → Bool) (t : Tbl α) :
    ∀ b, tblAbove b t → tblWf d t = true → tblAbove b (t.filter f) ∧ tblWf d (t.filter f) = true := by
  induction t with
  | nil => exact fun b h _ => ⟨h, rfl⟩
  | cons p t ih =>
    obtain ⟨j, v⟩ := p
    intro b hb ht
    obtain ⟨hv, ha, hw⟩ := (tblWf_cons d j v t).1 ht
    by_cases hf : f (j, v) = true
    · have := ih j ha hw
      simp only [List.filter, hf]
      exact ⟨hb, (tblWf_cons d j v _).2 ⟨hv, this.1, this.2⟩⟩
    · have := ih b (tblAbove_mono (Nat.le_of_lt hb) t ha) hw
      simpa [List.filter, hf] using this

/-- Leaving keys out keeps the canonical form. -/
theorem tblWf_filter (d : α) (f : Nat × α → Bool) (t : Tbl α) (ht : tblWf d t = true) : tblWf d (t.filter f) = true := by
  cases t with
  | nil => rfl
  | cons p t =>
    obtain ⟨j, v⟩ := p
    obtain ⟨hv, ha, hw⟩ := (tblWf_cons d j v t).1 ht
    have := tblAbove_filter d f t j ha hw
    by_cases hf : f (j, v) = true
    · simp only [List.filter, hf]
      exact (tblWf_cons d j v _).2 ⟨hv, this.1, this.2⟩
    · simpa [List.filter, hf] using this.2

end Sys2Proof
end

