-- ==== Sys2Proof/Laws/State.lean ====
section
/-! SUPPORT. What each shared update of the state leaves and what it writes: one lemma per field per update. -/
namespace Sys2Proof.Machine

variable (s : State)

@[simp] theorem State.setReg_pending (off : Nat) (w : Word) : (s.setReg off w).pending = s.pending := rfl
@[simp] theorem State.setReg_fv (off : Nat) (w : Word) : (s.setReg off w).fv = s.fv := rfl
@[simp] theorem State.setReg_time (off : Nat) (w : Word) : (s.setReg off w).time = s.time := rfl
@[simp] theorem State.setReg_mem (off : Nat) (w : Word) : (s.setReg off w).mem = s.mem := rfl
@[simp] theorem State.setReg_bad (off : Nat) (w : Word) : (s.setReg off w).bad = s.bad := rfl
@[simp] theorem State.setReg_eng (off : Nat) (w : Word) : (s.setReg off w).eng = s.eng := rfl
@[simp] theorem State.setReg_frames (off : Nat) (w : Word) : (s.setReg off w).frames = s.frames := rfl
@[simp] theorem State.setReg_cnt (off : Nat) (w : Word) : (s.setReg off w).cnt = s.cnt := rfl
@[simp] theorem State.setReg_boards (off : Nat) (w : Word) : (s.setReg off w).boards = s.boards := rfl
@[simp] theorem State.setReg_blocks (off : Nat) (w : Word) : (s.setReg off w).blocks = s.blocks := rfl
@[simp] theorem State.setReg_posts (off : Nat) (w : Word) : (s.setReg off w).posts = s.posts := rfl
@[simp] theorem State.setReg_cur (off : Nat) (w : Word) : (s.setReg off w).cur = s.cur := rfl
@[simp] theorem State.setReg_inst (off : Nat) (w : Word) : (s.setReg off w).inst = s.inst := rfl
@[simp] theorem State.setReg_clk (off : Nat) (w : Word) : (s.setReg off w).clk = s.clk := rfl
@[simp] theorem State.setReg_sn (off : Nat) (w : Word) : (s.setReg off w).sn = s.sn := rfl
@[simp] theorem State.setReg_jr (off : Nat) (w : Word) : (s.setReg off w).jr = s.jr := rfl
@[simp] theorem State.setReg_cf (off : Nat) (w : Word) : (s.setReg off w).cf = s.cf := rfl
@[simp] theorem State.setReg_ik (off : Nat) (w : Word) : (s.setReg off w).ik = s.ik := rfl
@[simp] theorem State.setReg_gh (off : Nat) (w : Word) : (s.setReg off w).gh = s.gh := rfl
@[simp] theorem State.setReg_ty (off : Nat) (w : Word) : (s.setReg off w).ty = s.ty := rfl
@[simp] theorem State.setReg_fn (off : Nat) (w : Word) : (s.setReg off w).fn = s.fn := rfl
@[simp] theorem State.setReg_tw (off : Nat) (w : Word) : (s.setReg off w).tw = s.tw := rfl
@[simp] theorem State.setReg_pw (off : Nat) (w : Word) : (s.setReg off w).pw = s.pw := rfl
@[simp] theorem State.setReg_out (off : Nat) (w : Word) : (s.setReg off w).out = s.out := rfl

@[simp] theorem State.setBit_pending (off b : Nat) : (s.setBit off b).pending = s.pending := rfl
@[simp] theorem State.setBit_fv (off b : Nat) : (s.setBit off b).fv = s.fv := rfl
@[simp] theorem State.setBit_time (off b : Nat) : (s.setBit off b).time = s.time := rfl
@[simp] theorem State.setBit_mem (off b : Nat) : (s.setBit off b).mem = s.mem := rfl
@[simp] theorem State.setBit_bad (off b : Nat) : (s.setBit off b).bad = s.bad := rfl
@[simp] theorem State.setBit_eng (off b : Nat) : (s.setBit off b).eng = s.eng := rfl
@[simp] theorem State.setBit_frames (off b : Nat) : (s.setBit off b).frames = s.frames := rfl
@[simp] theorem State.setBit_cnt (off b : Nat) : (s.setBit off b).cnt = s.cnt := rfl
@[simp] theorem State.setBit_boards (off b : Nat) : (s.setBit off b).boards = s.boards := rfl
@[simp] theorem State.setBit_blocks (off b : Nat) : (s.setBit off b).blocks = s.blocks := rfl
@[simp] theorem State.setBit_posts (off b : Nat) : (s.setBit off b).posts = s.posts := rfl
@[simp] theorem State.setBit_cur (off b : Nat) : (s.setBit off b).cur = s.cur := rfl
@[simp] theorem State.setBit_inst (off b : Nat) : (s.setBit off b).inst = s.inst := rfl
@[simp] theorem State.setBit_clk (off b : Nat) : (s.setBit off b).clk = s.clk := rfl
@[simp] theorem State.setBit_sn (off b : Nat) : (s.setBit off b).sn = s.sn := rfl
@[simp] theorem State.setBit_jr (off b : Nat) : (s.setBit off b).jr = s.jr := rfl
@[simp] theorem State.setBit_cf (off b : Nat) : (s.setBit off b).cf = s.cf := rfl
@[simp] theorem State.setBit_ik (off b : Nat) : (s.setBit off b).ik = s.ik := rfl
@[simp] theorem State.setBit_gh (off b : Nat) : (s.setBit off b).gh = s.gh := rfl
@[simp] theorem State.setBit_ty (off b : Nat) : (s.setBit off b).ty = s.ty := rfl
@[simp] theorem State.setBit_fn (off b : Nat) : (s.setBit off b).fn = s.fn := rfl
@[simp] theorem State.setBit_tw (off b : Nat) : (s.setBit off b).tw = s.tw := rfl
@[simp] theorem State.setBit_pw (off b : Nat) : (s.setBit off b).pw = s.pw := rfl
@[simp] theorem State.setBit_out (off b : Nat) : (s.setBit off b).out = s.out := rfl

@[simp] theorem State.clrBit_pending (off b : Nat) : (s.clrBit off b).pending = s.pending := rfl
@[simp] theorem State.clrBit_fv (off b : Nat) : (s.clrBit off b).fv = s.fv := rfl
@[simp] theorem State.clrBit_time (off b : Nat) : (s.clrBit off b).time = s.time := rfl
@[simp] theorem State.clrBit_mem (off b : Nat) : (s.clrBit off b).mem = s.mem := rfl
@[simp] theorem State.clrBit_bad (off b : Nat) : (s.clrBit off b).bad = s.bad := rfl
@[simp] theorem State.clrBit_eng (off b : Nat) : (s.clrBit off b).eng = s.eng := rfl
@[simp] theorem State.clrBit_frames (off b : Nat) : (s.clrBit off b).frames = s.frames := rfl
@[simp] theorem State.clrBit_cnt (off b : Nat) : (s.clrBit off b).cnt = s.cnt := rfl
@[simp] theorem State.clrBit_boards (off b : Nat) : (s.clrBit off b).boards = s.boards := rfl
@[simp] theorem State.clrBit_blocks (off b : Nat) : (s.clrBit off b).blocks = s.blocks := rfl
@[simp] theorem State.clrBit_posts (off b : Nat) : (s.clrBit off b).posts = s.posts := rfl
@[simp] theorem State.clrBit_cur (off b : Nat) : (s.clrBit off b).cur = s.cur := rfl
@[simp] theorem State.clrBit_inst (off b : Nat) : (s.clrBit off b).inst = s.inst := rfl
@[simp] theorem State.clrBit_clk (off b : Nat) : (s.clrBit off b).clk = s.clk := rfl
@[simp] theorem State.clrBit_sn (off b : Nat) : (s.clrBit off b).sn = s.sn := rfl
@[simp] theorem State.clrBit_jr (off b : Nat) : (s.clrBit off b).jr = s.jr := rfl
@[simp] theorem State.clrBit_cf (off b : Nat) : (s.clrBit off b).cf = s.cf := rfl
@[simp] theorem State.clrBit_ik (off b : Nat) : (s.clrBit off b).ik = s.ik := rfl
@[simp] theorem State.clrBit_gh (off b : Nat) : (s.clrBit off b).gh = s.gh := rfl
@[simp] theorem State.clrBit_ty (off b : Nat) : (s.clrBit off b).ty = s.ty := rfl
@[simp] theorem State.clrBit_fn (off b : Nat) : (s.clrBit off b).fn = s.fn := rfl
@[simp] theorem State.clrBit_tw (off b : Nat) : (s.clrBit off b).tw = s.tw := rfl
@[simp] theorem State.clrBit_pw (off b : Nat) : (s.clrBit off b).pw = s.pw := rfl
@[simp] theorem State.clrBit_out (off b : Nat) : (s.clrBit off b).out = s.out := rfl

@[simp] theorem State.setEng_pending (e : EngId) (x : Engine) : (s.setEng e x).pending = s.pending := rfl
@[simp] theorem State.setEng_fv (e : EngId) (x : Engine) : (s.setEng e x).fv = s.fv := rfl
@[simp] theorem State.setEng_time (e : EngId) (x : Engine) : (s.setEng e x).time = s.time := rfl
@[simp] theorem State.setEng_mem (e : EngId) (x : Engine) : (s.setEng e x).mem = s.mem := rfl
@[simp] theorem State.setEng_bad (e : EngId) (x : Engine) : (s.setEng e x).bad = s.bad := rfl
@[simp] theorem State.setEng_frames (e : EngId) (x : Engine) : (s.setEng e x).frames = s.frames := rfl
@[simp] theorem State.setEng_csr (e : EngId) (x : Engine) : (s.setEng e x).csr = s.csr := rfl
@[simp] theorem State.setEng_cnt (e : EngId) (x : Engine) : (s.setEng e x).cnt = s.cnt := rfl
@[simp] theorem State.setEng_boards (e : EngId) (x : Engine) : (s.setEng e x).boards = s.boards := rfl
@[simp] theorem State.setEng_blocks (e : EngId) (x : Engine) : (s.setEng e x).blocks = s.blocks := rfl
@[simp] theorem State.setEng_posts (e : EngId) (x : Engine) : (s.setEng e x).posts = s.posts := rfl
@[simp] theorem State.setEng_cur (e : EngId) (x : Engine) : (s.setEng e x).cur = s.cur := rfl
@[simp] theorem State.setEng_inst (e : EngId) (x : Engine) : (s.setEng e x).inst = s.inst := rfl
@[simp] theorem State.setEng_clk (e : EngId) (x : Engine) : (s.setEng e x).clk = s.clk := rfl
@[simp] theorem State.setEng_sn (e : EngId) (x : Engine) : (s.setEng e x).sn = s.sn := rfl
@[simp] theorem State.setEng_jr (e : EngId) (x : Engine) : (s.setEng e x).jr = s.jr := rfl
@[simp] theorem State.setEng_cf (e : EngId) (x : Engine) : (s.setEng e x).cf = s.cf := rfl
@[simp] theorem State.setEng_ik (e : EngId) (x : Engine) : (s.setEng e x).ik = s.ik := rfl
@[simp] theorem State.setEng_gh (e : EngId) (x : Engine) : (s.setEng e x).gh = s.gh := rfl
@[simp] theorem State.setEng_ty (e : EngId) (x : Engine) : (s.setEng e x).ty = s.ty := rfl
@[simp] theorem State.setEng_fn (e : EngId) (x : Engine) : (s.setEng e x).fn = s.fn := rfl
@[simp] theorem State.setEng_tw (e : EngId) (x : Engine) : (s.setEng e x).tw = s.tw := rfl
@[simp] theorem State.setEng_pw (e : EngId) (x : Engine) : (s.setEng e x).pw = s.pw := rfl
@[simp] theorem State.setEng_out (e : EngId) (x : Engine) : (s.setEng e x).out = s.out := rfl

@[simp] theorem State.modEng_pending (e : EngId) (f : Engine → Engine) : (s.modEng e f).pending = s.pending := rfl
@[simp] theorem State.modEng_fv (e : EngId) (f : Engine → Engine) : (s.modEng e f).fv = s.fv := rfl
@[simp] theorem State.modEng_time (e : EngId) (f : Engine → Engine) : (s.modEng e f).time = s.time := rfl
@[simp] theorem State.modEng_mem (e : EngId) (f : Engine → Engine) : (s.modEng e f).mem = s.mem := rfl
@[simp] theorem State.modEng_bad (e : EngId) (f : Engine → Engine) : (s.modEng e f).bad = s.bad := rfl
@[simp] theorem State.modEng_frames (e : EngId) (f : Engine → Engine) : (s.modEng e f).frames = s.frames := rfl
@[simp] theorem State.modEng_csr (e : EngId) (f : Engine → Engine) : (s.modEng e f).csr = s.csr := rfl
@[simp] theorem State.modEng_cnt (e : EngId) (f : Engine → Engine) : (s.modEng e f).cnt = s.cnt := rfl
@[simp] theorem State.modEng_boards (e : EngId) (f : Engine → Engine) : (s.modEng e f).boards = s.boards := rfl
@[simp] theorem State.modEng_blocks (e : EngId) (f : Engine → Engine) : (s.modEng e f).blocks = s.blocks := rfl
@[simp] theorem State.modEng_posts (e : EngId) (f : Engine → Engine) : (s.modEng e f).posts = s.posts := rfl
@[simp] theorem State.modEng_cur (e : EngId) (f : Engine → Engine) : (s.modEng e f).cur = s.cur := rfl
@[simp] theorem State.modEng_inst (e : EngId) (f : Engine → Engine) : (s.modEng e f).inst = s.inst := rfl
@[simp] theorem State.modEng_clk (e : EngId) (f : Engine → Engine) : (s.modEng e f).clk = s.clk := rfl
@[simp] theorem State.modEng_sn (e : EngId) (f : Engine → Engine) : (s.modEng e f).sn = s.sn := rfl
@[simp] theorem State.modEng_jr (e : EngId) (f : Engine → Engine) : (s.modEng e f).jr = s.jr := rfl
@[simp] theorem State.modEng_cf (e : EngId) (f : Engine → Engine) : (s.modEng e f).cf = s.cf := rfl
@[simp] theorem State.modEng_ik (e : EngId) (f : Engine → Engine) : (s.modEng e f).ik = s.ik := rfl
@[simp] theorem State.modEng_gh (e : EngId) (f : Engine → Engine) : (s.modEng e f).gh = s.gh := rfl
@[simp] theorem State.modEng_ty (e : EngId) (f : Engine → Engine) : (s.modEng e f).ty = s.ty := rfl
@[simp] theorem State.modEng_fn (e : EngId) (f : Engine → Engine) : (s.modEng e f).fn = s.fn := rfl
@[simp] theorem State.modEng_tw (e : EngId) (f : Engine → Engine) : (s.modEng e f).tw = s.tw := rfl
@[simp] theorem State.modEng_pw (e : EngId) (f : Engine → Engine) : (s.modEng e f).pw = s.pw := rfl
@[simp] theorem State.modEng_out (e : EngId) (f : Engine → Engine) : (s.modEng e f).out = s.out := rfl

@[simp] theorem State.requestLine_pending (e : EngId) (n : Nat) : (s.requestLine e n).pending = s.pending := rfl
@[simp] theorem State.requestLine_fv (e : EngId) (n : Nat) : (s.requestLine e n).fv = s.fv := rfl
@[simp] theorem State.requestLine_time (e : EngId) (n : Nat) : (s.requestLine e n).time = s.time := rfl
@[simp] theorem State.requestLine_mem (e : EngId) (n : Nat) : (s.requestLine e n).mem = s.mem := rfl
@[simp] theorem State.requestLine_bad (e : EngId) (n : Nat) : (s.requestLine e n).bad = s.bad := rfl
@[simp] theorem State.requestLine_frames (e : EngId) (n : Nat) : (s.requestLine e n).frames = s.frames := rfl
@[simp] theorem State.requestLine_csr (e : EngId) (n : Nat) : (s.requestLine e n).csr = s.csr := rfl
@[simp] theorem State.requestLine_cnt (e : EngId) (n : Nat) : (s.requestLine e n).cnt = s.cnt := rfl
@[simp] theorem State.requestLine_boards (e : EngId) (n : Nat) : (s.requestLine e n).boards = s.boards := rfl
@[simp] theorem State.requestLine_blocks (e : EngId) (n : Nat) : (s.requestLine e n).blocks = s.blocks := rfl
@[simp] theorem State.requestLine_posts (e : EngId) (n : Nat) : (s.requestLine e n).posts = s.posts := rfl
@[simp] theorem State.requestLine_cur (e : EngId) (n : Nat) : (s.requestLine e n).cur = s.cur := rfl
@[simp] theorem State.requestLine_inst (e : EngId) (n : Nat) : (s.requestLine e n).inst = s.inst := rfl
@[simp] theorem State.requestLine_clk (e : EngId) (n : Nat) : (s.requestLine e n).clk = s.clk := rfl
@[simp] theorem State.requestLine_sn (e : EngId) (n : Nat) : (s.requestLine e n).sn = s.sn := rfl
@[simp] theorem State.requestLine_jr (e : EngId) (n : Nat) : (s.requestLine e n).jr = s.jr := rfl
@[simp] theorem State.requestLine_cf (e : EngId) (n : Nat) : (s.requestLine e n).cf = s.cf := rfl
@[simp] theorem State.requestLine_ik (e : EngId) (n : Nat) : (s.requestLine e n).ik = s.ik := rfl
@[simp] theorem State.requestLine_gh (e : EngId) (n : Nat) : (s.requestLine e n).gh = s.gh := rfl
@[simp] theorem State.requestLine_ty (e : EngId) (n : Nat) : (s.requestLine e n).ty = s.ty := rfl
@[simp] theorem State.requestLine_fn (e : EngId) (n : Nat) : (s.requestLine e n).fn = s.fn := rfl
@[simp] theorem State.requestLine_tw (e : EngId) (n : Nat) : (s.requestLine e n).tw = s.tw := rfl
@[simp] theorem State.requestLine_pw (e : EngId) (n : Nat) : (s.requestLine e n).pw = s.pw := rfl
@[simp] theorem State.requestLine_out (e : EngId) (n : Nat) : (s.requestLine e n).out = s.out := rfl

@[simp] theorem State.writeMem_pending (pa : Nat) (ws : List Word) : (s.writeMem pa ws).pending = s.pending := rfl
@[simp] theorem State.writeMem_fv (pa : Nat) (ws : List Word) : (s.writeMem pa ws).fv = s.fv := rfl
@[simp] theorem State.writeMem_time (pa : Nat) (ws : List Word) : (s.writeMem pa ws).time = s.time := rfl
@[simp] theorem State.writeMem_eng (pa : Nat) (ws : List Word) : (s.writeMem pa ws).eng = s.eng := rfl
@[simp] theorem State.writeMem_frames (pa : Nat) (ws : List Word) : (s.writeMem pa ws).frames = s.frames := rfl
@[simp] theorem State.writeMem_csr (pa : Nat) (ws : List Word) : (s.writeMem pa ws).csr = s.csr := rfl
@[simp] theorem State.writeMem_cnt (pa : Nat) (ws : List Word) : (s.writeMem pa ws).cnt = s.cnt := rfl
@[simp] theorem State.writeMem_boards (pa : Nat) (ws : List Word) : (s.writeMem pa ws).boards = s.boards := rfl
@[simp] theorem State.writeMem_blocks (pa : Nat) (ws : List Word) : (s.writeMem pa ws).blocks = s.blocks := rfl
@[simp] theorem State.writeMem_posts (pa : Nat) (ws : List Word) : (s.writeMem pa ws).posts = s.posts := rfl
@[simp] theorem State.writeMem_cur (pa : Nat) (ws : List Word) : (s.writeMem pa ws).cur = s.cur := rfl
@[simp] theorem State.writeMem_inst (pa : Nat) (ws : List Word) : (s.writeMem pa ws).inst = s.inst := rfl
@[simp] theorem State.writeMem_clk (pa : Nat) (ws : List Word) : (s.writeMem pa ws).clk = s.clk := rfl
@[simp] theorem State.writeMem_sn (pa : Nat) (ws : List Word) : (s.writeMem pa ws).sn = s.sn := rfl
@[simp] theorem State.writeMem_jr (pa : Nat) (ws : List Word) : (s.writeMem pa ws).jr = s.jr := rfl
@[simp] theorem State.writeMem_cf (pa : Nat) (ws : List Word) : (s.writeMem pa ws).cf = s.cf := rfl
@[simp] theorem State.writeMem_ik (pa : Nat) (ws : List Word) : (s.writeMem pa ws).ik = s.ik := rfl
@[simp] theorem State.writeMem_gh (pa : Nat) (ws : List Word) : (s.writeMem pa ws).gh = s.gh := rfl
@[simp] theorem State.writeMem_ty (pa : Nat) (ws : List Word) : (s.writeMem pa ws).ty = s.ty := rfl
@[simp] theorem State.writeMem_fn (pa : Nat) (ws : List Word) : (s.writeMem pa ws).fn = s.fn := rfl
@[simp] theorem State.writeMem_tw (pa : Nat) (ws : List Word) : (s.writeMem pa ws).tw = s.tw := rfl
@[simp] theorem State.writeMem_pw (pa : Nat) (ws : List Word) : (s.writeMem pa ws).pw = s.pw := rfl
@[simp] theorem State.writeMem_out (pa : Nat) (ws : List Word) : (s.writeMem pa ws).out = s.out := rfl

@[simp] theorem State.markBad_pending (pa : Nat) : (s.markBad pa).pending = s.pending := rfl
@[simp] theorem State.markBad_fv (pa : Nat) : (s.markBad pa).fv = s.fv := rfl
@[simp] theorem State.markBad_time (pa : Nat) : (s.markBad pa).time = s.time := rfl
@[simp] theorem State.markBad_mem (pa : Nat) : (s.markBad pa).mem = s.mem := rfl
@[simp] theorem State.markBad_eng (pa : Nat) : (s.markBad pa).eng = s.eng := rfl
@[simp] theorem State.markBad_frames (pa : Nat) : (s.markBad pa).frames = s.frames := rfl
@[simp] theorem State.markBad_csr (pa : Nat) : (s.markBad pa).csr = s.csr := rfl
@[simp] theorem State.markBad_cnt (pa : Nat) : (s.markBad pa).cnt = s.cnt := rfl
@[simp] theorem State.markBad_boards (pa : Nat) : (s.markBad pa).boards = s.boards := rfl
@[simp] theorem State.markBad_blocks (pa : Nat) : (s.markBad pa).blocks = s.blocks := rfl
@[simp] theorem State.markBad_posts (pa : Nat) : (s.markBad pa).posts = s.posts := rfl
@[simp] theorem State.markBad_cur (pa : Nat) : (s.markBad pa).cur = s.cur := rfl
@[simp] theorem State.markBad_inst (pa : Nat) : (s.markBad pa).inst = s.inst := rfl
@[simp] theorem State.markBad_clk (pa : Nat) : (s.markBad pa).clk = s.clk := rfl
@[simp] theorem State.markBad_sn (pa : Nat) : (s.markBad pa).sn = s.sn := rfl
@[simp] theorem State.markBad_jr (pa : Nat) : (s.markBad pa).jr = s.jr := rfl
@[simp] theorem State.markBad_cf (pa : Nat) : (s.markBad pa).cf = s.cf := rfl
@[simp] theorem State.markBad_ik (pa : Nat) : (s.markBad pa).ik = s.ik := rfl
@[simp] theorem State.markBad_gh (pa : Nat) : (s.markBad pa).gh = s.gh := rfl
@[simp] theorem State.markBad_ty (pa : Nat) : (s.markBad pa).ty = s.ty := rfl
@[simp] theorem State.markBad_fn (pa : Nat) : (s.markBad pa).fn = s.fn := rfl
@[simp] theorem State.markBad_tw (pa : Nat) : (s.markBad pa).tw = s.tw := rfl
@[simp] theorem State.markBad_pw (pa : Nat) : (s.markBad pa).pw = s.pw := rfl
@[simp] theorem State.markBad_out (pa : Nat) : (s.markBad pa).out = s.out := rfl

@[simp] theorem State.count_pending (k n : Nat) : (s.count k n).pending = s.pending := rfl
@[simp] theorem State.count_fv (k n : Nat) : (s.count k n).fv = s.fv := rfl
@[simp] theorem State.count_time (k n : Nat) : (s.count k n).time = s.time := rfl
@[simp] theorem State.count_mem (k n : Nat) : (s.count k n).mem = s.mem := rfl
@[simp] theorem State.count_bad (k n : Nat) : (s.count k n).bad = s.bad := rfl
@[simp] theorem State.count_eng (k n : Nat) : (s.count k n).eng = s.eng := rfl
@[simp] theorem State.count_frames (k n : Nat) : (s.count k n).frames = s.frames := rfl
@[simp] theorem State.count_csr (k n : Nat) : (s.count k n).csr = s.csr := rfl
@[simp] theorem State.count_boards (k n : Nat) : (s.count k n).boards = s.boards := rfl
@[simp] theorem State.count_blocks (k n : Nat) : (s.count k n).blocks = s.blocks := rfl
@[simp] theorem State.count_posts (k n : Nat) : (s.count k n).posts = s.posts := rfl
@[simp] theorem State.count_cur (k n : Nat) : (s.count k n).cur = s.cur := rfl
@[simp] theorem State.count_inst (k n : Nat) : (s.count k n).inst = s.inst := rfl
@[simp] theorem State.count_clk (k n : Nat) : (s.count k n).clk = s.clk := rfl
@[simp] theorem State.count_sn (k n : Nat) : (s.count k n).sn = s.sn := rfl
@[simp] theorem State.count_jr (k n : Nat) : (s.count k n).jr = s.jr := rfl
@[simp] theorem State.count_cf (k n : Nat) : (s.count k n).cf = s.cf := rfl
@[simp] theorem State.count_ik (k n : Nat) : (s.count k n).ik = s.ik := rfl
@[simp] theorem State.count_gh (k n : Nat) : (s.count k n).gh = s.gh := rfl
@[simp] theorem State.count_ty (k n : Nat) : (s.count k n).ty = s.ty := rfl
@[simp] theorem State.count_fn (k n : Nat) : (s.count k n).fn = s.fn := rfl
@[simp] theorem State.count_tw (k n : Nat) : (s.count k n).tw = s.tw := rfl
@[simp] theorem State.count_pw (k n : Nat) : (s.count k n).pw = s.pw := rfl
@[simp] theorem State.count_out (k n : Nat) : (s.count k n).out = s.out := rfl

@[simp] theorem State.drawn_pending  : (s.drawn ).pending = s.pending := rfl
@[simp] theorem State.drawn_time  : (s.drawn ).time = s.time := rfl
@[simp] theorem State.drawn_mem  : (s.drawn ).mem = s.mem := rfl
@[simp] theorem State.drawn_bad  : (s.drawn ).bad = s.bad := rfl
@[simp] theorem State.drawn_eng  : (s.drawn ).eng = s.eng := rfl
@[simp] theorem State.drawn_frames  : (s.drawn ).frames = s.frames := rfl
@[simp] theorem State.drawn_csr  : (s.drawn ).csr = s.csr := rfl
@[simp] theorem State.drawn_cnt  : (s.drawn ).cnt = s.cnt := rfl
@[simp] theorem State.drawn_boards  : (s.drawn ).boards = s.boards := rfl
@[simp] theorem State.drawn_blocks  : (s.drawn ).blocks = s.blocks := rfl
@[simp] theorem State.drawn_posts  : (s.drawn ).posts = s.posts := rfl
@[simp] theorem State.drawn_cur  : (s.drawn ).cur = s.cur := rfl
@[simp] theorem State.drawn_inst  : (s.drawn ).inst = s.inst := rfl
@[simp] theorem State.drawn_clk  : (s.drawn ).clk = s.clk := rfl
@[simp] theorem State.drawn_sn  : (s.drawn ).sn = s.sn := rfl
@[simp] theorem State.drawn_jr  : (s.drawn ).jr = s.jr := rfl
@[simp] theorem State.drawn_cf  : (s.drawn ).cf = s.cf := rfl
@[simp] theorem State.drawn_ik  : (s.drawn ).ik = s.ik := rfl
@[simp] theorem State.drawn_gh  : (s.drawn ).gh = s.gh := rfl
@[simp] theorem State.drawn_ty  : (s.drawn ).ty = s.ty := rfl
@[simp] theorem State.drawn_fn  : (s.drawn ).fn = s.fn := rfl
@[simp] theorem State.drawn_tw  : (s.drawn ).tw = s.tw := rfl
@[simp] theorem State.drawn_pw  : (s.drawn ).pw = s.pw := rfl
@[simp] theorem State.drawn_out  : (s.drawn ).out = s.out := rfl

@[simp] theorem State.putBit_pending (off b : Nat) (v : Bool) : (s.putBit off b v).pending = s.pending := by cases v <;> rfl
@[simp] theorem State.putBit_fv (off b : Nat) (v : Bool) : (s.putBit off b v).fv = s.fv := by cases v <;> rfl
@[simp] theorem State.putBit_time (off b : Nat) (v : Bool) : (s.putBit off b v).time = s.time := by cases v <;> rfl
@[simp] theorem State.putBit_mem (off b : Nat) (v : Bool) : (s.putBit off b v).mem = s.mem := by cases v <;> rfl
@[simp] theorem State.putBit_bad (off b : Nat) (v : Bool) : (s.putBit off b v).bad = s.bad := by cases v <;> rfl
@[simp] theorem State.putBit_eng (off b : Nat) (v : Bool) : (s.putBit off b v).eng = s.eng := by cases v <;> rfl
@[simp] theorem State.putBit_frames (off b : Nat) (v : Bool) : (s.putBit off b v).frames = s.frames := by cases v <;> rfl
@[simp] theorem State.putBit_cnt (off b : Nat) (v : Bool) : (s.putBit off b v).cnt = s.cnt := by cases v <;> rfl
@[simp] theorem State.putBit_boards (off b : Nat) (v : Bool) : (s.putBit off b v).boards = s.boards := by cases v <;> rfl
@[simp] theorem State.putBit_blocks (off b : Nat) (v : Bool) : (s.putBit off b v).blocks = s.blocks := by cases v <;> rfl
@[simp] theorem State.putBit_posts (off b : Nat) (v : Bool) : (s.putBit off b v).posts = s.posts := by cases v <;> rfl
@[simp] theorem State.putBit_cur (off b : Nat) (v : Bool) : (s.putBit off b v).cur = s.cur := by cases v <;> rfl
@[simp] theorem State.putBit_inst (off b : Nat) (v : Bool) : (s.putBit off b v).inst = s.inst := by cases v <;> rfl
@[simp] theorem State.putBit_clk (off b : Nat) (v : Bool) : (s.putBit off b v).clk = s.clk := by cases v <;> rfl
@[simp] theorem State.putBit_sn (off b : Nat) (v : Bool) : (s.putBit off b v).sn = s.sn := by cases v <;> rfl
@[simp] theorem State.putBit_jr (off b : Nat) (v : Bool) : (s.putBit off b v).jr = s.jr := by cases v <;> rfl
@[simp] theorem State.putBit_cf (off b : Nat) (v : Bool) : (s.putBit off b v).cf = s.cf := by cases v <;> rfl
@[simp] theorem State.putBit_ik (off b : Nat) (v : Bool) : (s.putBit off b v).ik = s.ik := by cases v <;> rfl
@[simp] theorem State.putBit_gh (off b : Nat) (v : Bool) : (s.putBit off b v).gh = s.gh := by cases v <;> rfl
@[simp] theorem State.putBit_ty (off b : Nat) (v : Bool) : (s.putBit off b v).ty = s.ty := by cases v <;> rfl
@[simp] theorem State.putBit_fn (off b : Nat) (v : Bool) : (s.putBit off b v).fn = s.fn := by cases v <;> rfl
@[simp] theorem State.putBit_tw (off b : Nat) (v : Bool) : (s.putBit off b v).tw = s.tw := by cases v <;> rfl
@[simp] theorem State.putBit_pw (off b : Nat) (v : Bool) : (s.putBit off b v).pw = s.pw := by cases v <;> rfl
@[simp] theorem State.putBit_out (off b : Nat) (v : Bool) : (s.putBit off b v).out = s.out := by cases v <;> rfl

/-! ### Registers -/

@[simp] theorem State.reg_setReg_self (off : Nat) (w : Word) : (s.setReg off w).reg off = w :=
  tblGet_set_self ..

theorem State.reg_setReg_ne {off i : Nat} (w : Word) (h : i ≠ off) : (s.setReg off w).reg i = s.reg i :=
  tblGet_set_ne _ _ _ h

theorem State.reg_setReg (off i : Nat) (w : Word) : (s.setReg off w).reg i = if i = off then w else s.reg i :=
  tblGet_set ..

@[simp] theorem State.reg_setBit_self (off b : Nat) : (s.setBit off b).reg off = s.reg off ||| (1#16 <<< b) :=
  State.reg_setReg_self ..

theorem State.reg_setBit_ne {off i : Nat} (b : Nat) (h : i ≠ off) : (s.setBit off b).reg i = s.reg i :=
  State.reg_setReg_ne _ _ h

@[simp] theorem State.reg_clrBit_self (off b : Nat) : (s.clrBit off b).reg off = s.reg off &&& ~~~(1#16 <<< b) :=
  State.reg_setReg_self ..

theorem State.reg_clrBit_ne {off i : Nat} (b : Nat) (h : i ≠ off) : (s.clrBit off b).reg i = s.reg i :=
  State.reg_setReg_ne _ _ h

/-- A set bit reads 1. -/
theorem State.bit_setBit_self (off : Nat) {b : Nat} (h : b < 16) : (s.setBit off b).bit off b = true := by
  simp [State.bit, h]

/-- Setting a bit leaves every other bit and register as it was. -/
theorem State.bit_setBit_ne {off b i j : Nat} (h : i ≠ off ∨ j ≠ b) : (s.setBit off b).bit i j = s.bit i j := by
  by_cases hi : i = off
  · subst hi
    have hj : j ≠ b := by simpa using h
    simp only [State.bit, State.reg_setBit_self, BitVec.getLsbD_or, BitVec.getLsbD_shiftLeft]
    by_cases hlt : j < b
    · simp [hlt]
    · have : j - b ≠ 0 := by omega
      simp [BitVec.getLsbD_one, this]
  · simp [State.bit, State.reg_setBit_ne s b hi]

/-- A cleared bit reads 0. -/
theorem State.bit_clrBit_self (off b : Nat) : (s.clrBit off b).bit off b = false := by
  by_cases h : b < 16
  · simp [State.bit, h]
  · simp [State.bit, h]

/-! ### Engines -/

@[simp] theorem State.engAt_setEng_self (e : EngId) (x : Engine) : (s.setEng e x).engAt e = x :=
  tblGet_set_self ..

theorem State.engAt_setEng_ne {e g : EngId} (x : Engine) (h : g ≠ e) : (s.setEng e x).engAt g = s.engAt g :=
  tblGet_set_ne _ _ _ fun hv => h (Fin.ext hv)

@[simp] theorem State.engAt_modEng_self (e : EngId) (f : Engine → Engine) : (s.modEng e f).engAt e = f (s.engAt e) :=
  State.engAt_setEng_self ..

theorem State.engAt_modEng_ne {e g : EngId} (f : Engine → Engine) (h : g ≠ e) : (s.modEng e f).engAt g = s.engAt g :=
  State.engAt_setEng_ne _ _ h

end Sys2Proof.Machine
end

