-- ==== Sys2Proof/Laws/Retire.lean ====
section
/-! SUPPORT. What the shared operations of issuing and retiring an instruction do, said once: counting events, fetching,
retiring, and the issue of an instruction that only computes on the registers. -/
namespace Sys2Proof.Machine

/-- The performance-counter interrupt bit aside, setting it leaves IPEND. -/
theorem ipend_mask (w : Word) : (w ||| 8#16) &&& 0xFFF7#16 = w &&& 0xFFF7#16 := by
  have h : ∀ j : Fin 16, (0xFFF7#16)[j.val] = !(8#16)[j.val] := by decide
  ext i hi
  simp only [BitVec.getElem_and, BitVec.getElem_or]
  have := h ⟨i, hi⟩
  simp only at this
  rw [this]
  cases (8#16)[i] <;> cases w[i] <;> rfl

/-- Engine y is engine x but for the bookkeeping of a retirement. -/
def Engine.Booked (x y : Engine) : Prop := y.rest = x.rest ∧ y.regs = x.regs ∧ y.pc = x.pc

theorem Engine.Booked.refl (x : Engine) : x.Booked x := ⟨rfl, rfl, rfl⟩

theorem Engine.Booked.trans {x y z : Engine} (h : x.Booked y) (k : y.Booked z) : x.Booked z :=
  ⟨k.1.trans h.1, k.2.1.trans h.2.1, k.2.2.trans h.2.2⟩

section
variable {x y : Engine} (h : x.Booked y)
include h
theorem Engine.Booked.npc : y.npc = x.npc := by have := congrArg Engine.npc h.1; exact this
theorem Engine.Booked.slot : y.slot = x.slot := by have := congrArg Engine.slot h.1; exact this
theorem Engine.Booked.psr : y.psr = x.psr := by have := congrArg Engine.psr h.1; exact this
theorem Engine.Booked.run : y.run = x.run := by have := congrArg Engine.run h.1; exact this
theorem Engine.Booked.stepLeft : y.stepLeft = x.stepLeft := by have := congrArg Engine.stepLeft h.1; exact this
theorem Engine.Booked.haltAsked : y.haltAsked = x.haltAsked := by have := congrArg Engine.haltAsked h.1; exact this
theorem Engine.Booked.tlb : y.tlb = x.tlb := by have := congrArg Engine.tlb h.1; exact this
theorem Engine.Booked.ftlb : y.ftlb = x.ftlb := by have := congrArg Engine.ftlb h.1; exact this
theorem Engine.Booked.fasid : y.fasid = x.fasid := by have := congrArg Engine.fasid h.1; exact this
theorem Engine.Booked.dcache : y.dcache = x.dcache := by have := congrArg Engine.dcache h.1; exact this
theorem Engine.Booked.sb : y.sb = x.sb := by have := congrArg Engine.sb h.1; exact this
/-- The control registers but for the interrupt line of the performance counters. -/
theorem Engine.Booked.ctrl : { y.ctrl with ipend := 0#16 } = { x.ctrl with ipend := 0#16 } := by
  have := congrArg (fun z : Engine => { z.ctrl with ipend := 0#16 }) h.1; exact this
theorem Engine.Booked.asid : y.ctrl.asid = x.ctrl.asid := by
  have := congrArg (fun z : Engine => z.ctrl.asid) h.1; exact this
theorem Engine.Booked.hvalid : y.ctrl.hvalid = x.ctrl.hvalid := by
  have := congrArg (fun z : Engine => z.ctrl.hvalid) h.1; exact this
theorem Engine.Booked.hinst : y.ctrl.hinst = x.ctrl.hinst := by
  have := congrArg (fun z : Engine => z.ctrl.hinst) h.1; exact this
theorem Engine.Booked.repeating : y.repeating = x.repeating := by simp [Engine.repeating, h.2.1, h.psr]
end

/-- Counting events changes nothing but the performance counters and their interrupt line. -/
theorem Engine.count_booked (x : Engine) (ks : List Nat) (ev n : Nat) : x.Booked (x.count ks ev n) := by
  unfold Engine.count
  induction ks generalizing x with
  | nil => exact .refl x
  | cons k ks ih =>
    rw [List.foldl_cons]
    refine .trans ?_ (ih _)
    dsimp only
    split
    · refine ⟨?_, rfl, rfl⟩
      simp only [Engine.rest]
      split
      · rw [ipend_mask]
      · rfl
    · exact .refl x

/-- Bringing in fetched lines changes nothing but the instruction cache, the performance counters and their line. -/
theorem fetchLines_booked (s : State) (x : Engine) (e : EngId) (fps : List Phys) : x.Booked (fetchLines s x e fps) := by
  unfold fetchLines
  induction fps generalizing x with
  | nil => exact .refl x
  | cons q fps ih =>
    rw [List.foldl_cons]
    refine .trans ?_ (ih _)
    dsimp only
    split
    · exact .refl x
    · exact .trans ⟨rfl, rfl, rfl⟩ (Engine.count_booked _ _ _ _)

/-- Marking an issue slot changes nothing but the slot classifier's marks. -/
theorem Engine.issued_booked (x : Engine) (second : Bool) : x.Booked (x.issued second) := ⟨rfl, rfl, rfl⟩

/-- The end of a step leaves a device that is not stepping. -/
theorem stepDone_idle (s : State) (e : EngId) (h : (s.engAt e).stepLeft = 0) : stepDone s e = s := by
  simp [stepDone, h]

/-- An instruction retires in sequence, outside a block repeat's end and outside stepping: only its engine changes. -/
theorem retire_seq (s : State) (e : EngId) (x0 : Engine) (sh : Shape) (fps : List Phys) (chg : Nat)
    (hn : x0.npc = none) (hr : ((s.engAt e).repeating && x0.pc == (s.engAt e).regs.bre) = false)
    (hs : (s.engAt e).stepLeft = 0) :
    ∃ x, retire s e x0 sh fps chg .seq = s.setEng e x ∧ x.regs = (s.engAt e).regs ∧
      x.pc = x0.pc + BitVec.ofNat 48 sh.len ∧ x.npc = none ∧
      x.rest = { s.engAt e with npc := none, slot := false }.rest := by
  have key : ∀ z : Engine, (s.engAt e).Booked z →
      ∃ x, stepDone (s.setEng e
        { (breTest { z with skipDbg := false, skipWp := false } x0.pc (x0.npc.getD (x0.pc + BitVec.ofNat 48 sh.len))
            (x0.pc + BitVec.ofNat 48 sh.len)).2 with
          pc := (breTest { z with skipDbg := false, skipWp := false } x0.pc (x0.npc.getD (x0.pc + BitVec.ofNat 48 sh.len))
            (x0.pc + BitVec.ofNat 48 sh.len)).1
          npc := none, slot := false, annul := false, pair := openPair x0 e sh (isSecond x0 e sh) }) e = s.setEng e x ∧
        x.regs = (s.engAt e).regs ∧ x.pc = x0.pc + BitVec.ofNat 48 sh.len ∧ x.npc = none ∧
        x.rest = { s.engAt e with npc := none, slot := false }.rest := by
    intro z hz
    have hb : breTest { z with skipDbg := false, skipWp := false } x0.pc (x0.npc.getD (x0.pc + BitVec.ofNat 48 sh.len))
        (x0.pc + BitVec.ofNat 48 sh.len) = (x0.pc + BitVec.ofNat 48 sh.len, { z with skipDbg := false, skipWp := false }) := by
      unfold breTest
      rw [if_neg, hn]
      · rfl
      · rintro ⟨ha, hb⟩
        have h1 := hz.repeating
        simp only [Engine.repeating] at ha h1 hb hr
        rw [← h1, ha, hb, hz.2.1] at hr
        simp at hr
    rw [hb]
    refine ⟨_, stepDone_idle _ _ ?_, ?_, rfl, rfl, ?_⟩
    · simp [hz.stepLeft, hs]
    · exact hz.2.1
    · have := hz.1
      simp only [Engine.rest, Engine.mk.injEq] at this ⊢
      simp [this]
  unfold retire
  dsimp only
  apply key
  have due : (s.engAt e).Booked { s.engAt e with pmcDue := (s.engAt e).pmcDue.map (· - 1) } := ⟨rfl, rfl, rfl⟩
  refine .trans due (.trans (Engine.count_booked _ (perfKeys e) 1 1) ?_)
  have meter : ∀ z : Engine, z.Booked (if (x0.metered && !sh.unmetered) = true then
      { if x0.pc.toNat % 4 + sh.len > 4 then (z.count (perfKeys e) 15 chg).count (perfKeys e) 16 1
          else z.count (perfKeys e) 15 chg with
        meter := { (if x0.pc.toNat % 4 + sh.len > 4 then (z.count (perfKeys e) 15 chg).count (perfKeys e) 16 1
          else z.count (perfKeys e) 15 chg).meter with
          charge := (if x0.pc.toNat % 4 + sh.len > 4 then (z.count (perfKeys e) 15 chg).count (perfKeys e) 16 1
            else z.count (perfKeys e) 15 chg).meter.charge + BitVec.ofNat 32 chg
          prev := fps.head?.map (·.pa) } } else z) := by
    intro z
    split
    · refine .trans (Engine.count_booked z (perfKeys e) 15 chg) ?_
      split
      · exact .trans (Engine.count_booked _ (perfKeys e) 16 1) ⟨rfl, rfl, rfl⟩
      · exact ⟨rfl, rfl, rfl⟩
    · exact .refl z
  by_cases h : isSecond x0 e sh = true
  · simp only [h, if_true]
    exact .trans (Engine.count_booked _ (perfKeys e) 2 1) (meter _)
  · simp only [h]
    exact meter _

end Sys2Proof.Machine
end

