-- ==== Sys2Proof/Laws/Issue.lean ====
section
/-! SUPPORT. Issue of an instruction whose words can be fetched and whose operands divert nothing: what `issue` answers
where the engine is `clear`, and what the shapes of the register instructions do there. -/
namespace Sys2Proof.Machine

/-! ### The charge is small -/

theorem regionCost_le (e : EngId) (r : Region) (b : Bool) : (regionCost e r b).1 ≤ 16000 := by
  cases r <;> simp only [regionCost] <;> (repeat' split) <;> simp

theorem noRepeats_length {α : Type} [BEq α] (l : List α) : (noRepeats l).length ≤ l.length := by
  induction l with
  | nil => simp [noRepeats]
  | cons a l ih => simp only [noRepeats]; split <;> simp <;> omega

theorem sum_le_mul (l : List Nat) (b : Nat) (h : ∀ x ∈ l, x ≤ b) : l.sum ≤ l.length * b := by
  induction l with
  | nil => simp
  | cons a l ih =>
    have h1 := h a (by simp)
    have h2 := ih fun x hx => h x (by simp [hx])
    simp only [List.sum_cons, List.length_cons, Nat.add_mul]
    omega

theorem fetchCharge_le (x : Engine) (e : EngId) (fps : List Phys) : fetchCharge x e fps ≤ 1 + fps.length * 16000 := by
  unfold fetchCharge
  dsimp only
  have h : ∀ l : List Nat, (l.map fun l => (regionCost e (regionOf (l * 16)) false).1).sum ≤ l.length * 16000 := by
    intro l
    refine Nat.le_trans (sum_le_mul _ 16000 ?_) (by simp)
    intro y hy
    obtain ⟨a, _, rfl⟩ := List.mem_map.1 hy
    exact regionCost_le ..
  have hl : ∀ f : Nat → Bool, ((noRepeats ((fps.filter fun p => regionOf p.pa != .loc e.val).map fun p => p.pa / 16)).filter f).length ≤ fps.length := by
    intro f
    refine Nat.le_trans (List.length_filter_le _ _) (Nat.le_trans (noRepeats_length _) ?_)
    simpa using List.length_filter_le _ fps
  refine Nat.add_le_add ?_ (Nat.le_trans (h _) (Nat.mul_le_mul_right 16000 (hl _)))
  split <;> omega

theorem translate_length (s : State) (e : EngId) (vas : List Addr) (k : Kind) (ps : List Phys)
    (h : translate s e vas k = .ok ps) : ps.length ≤ vas.length := by
  have hl : (((vas.map fun v => (v, translateWord s e v k))).filterMap fun r => match r.2 with | .ok p => some p | _ => none).length ≤ vas.length :=
    Nat.le_trans (List.length_filterMap_le _ _) (by simp)
  simp only [translate] at h
  split at h
  · cases h
  split at h
  · cases h
  split at h
  · cases h
  split at h
  · cases h; simp
  · split at h
    · cases h; exact hl
    · cases h

/-! ### Issue -/

theorem setEng_setEng (s : State) (e : EngId) (x y : Engine) : (s.setEng e x).setEng e y = s.setEng e y := by
  simp only [State.setEng, tblSet_set]

/-- The charge of an instruction with no data access. -/
theorem chargeOf_le (x : Engine) (e : EngId) (sh : Shape) (pl : Plan) (fps : List Phys) (h : pl.acc = []) :
    chargeOf x e sh pl fps [] ≤ sh.base + 6 + fps.length * 16000 := by
  have := fetchCharge_le x e fps
  unfold chargeOf
  simp only [h, List.zip_nil_left, List.map_nil, List.sum_nil]
  split <;> split <;> omega

theorem unhindered_parts {s : State} {e : EngId} {n : Nat} (h : unhindered s e n = true) :
    canIssue s e = true ∧
    (∀ p, (s.engAt e).pair = some p → p.next ≠ (s.engAt e).pc) ∧
    (∀ b ∈ (s.engAt e).bps, b.2.armed = false) ∧ (∀ b ∈ (s.engAt e).wps, b.2.armed = false) ∧
    (s.engAt e).haltAsked = false ∧ (s.engAt e).stepLeft = 0 ∧
    ((s.engAt e).metered = true → (s.engAt e).meter.charge.toNat + 65536 ≤ (s.engAt e).meter.budget.toNat) ∧
    ∃ ps, translate s e (accessVas (s.engAt e).pc n) .fetch = .ok ps ∧ ∀ p ∈ ps, fetchBad s e p = false := by
  simp only [unhindered, Bool.and_eq_true, Bool.not_eq_true', Bool.or_eq_true, decide_eq_true_eq,
    beq_iff_eq, List.all_eq_true] at h
  obtain ⟨⟨⟨⟨⟨⟨⟨⟨h1, h4⟩, h5⟩, h6⟩, h7⟩, h8⟩, -⟩, h10⟩, h11⟩ := h
  refine ⟨h1, ?_, ?_, ?_, h7, h8, ?_, ?_⟩
  · intro p hp
    rw [hp] at h4
    simpa using h4
  · intro b hb; simpa using h5 b hb
  · intro b hb; simpa using h6 b hb
  · intro hm
    rcases h10 with h10 | h10
    · rw [hm] at h10; cases h10
    · exact h10
  · split at h11
    · rename_i ps hps
      exact ⟨ps, hps, fun p hp => by simpa using List.all_eq_true.1 h11 p hp⟩
    · cases h11

theorem clear_parts {s : State} {e : EngId} {n : Nat} (h : clear s e n = true) :
    canIssue s e = true ∧ (s.engAt e).slot = false ∧ (s.engAt e).npc = none ∧
    (∀ p, (s.engAt e).pair = some p → p.next ≠ (s.engAt e).pc) ∧
    (∀ b ∈ (s.engAt e).bps, b.2.armed = false) ∧ (∀ b ∈ (s.engAt e).wps, b.2.armed = false) ∧
    (s.engAt e).haltAsked = false ∧ (s.engAt e).stepLeft = 0 ∧
    ((s.engAt e).repeating && (s.engAt e).pc == (s.engAt e).regs.bre) = false ∧
    ((s.engAt e).metered = true → (s.engAt e).meter.charge.toNat + 65536 ≤ (s.engAt e).meter.budget.toNat) ∧
    ∃ ps, translate s e (accessVas (s.engAt e).pc n) .fetch = .ok ps ∧ ∀ p ∈ ps, fetchBad s e p = false := by
  simp only [clear, Bool.and_eq_true, Bool.not_eq_true', Option.isNone_iff_eq_none] at h
  obtain ⟨⟨⟨h0, h2⟩, h3⟩, h9⟩ := h
  obtain ⟨h1, h4, h5, h6, h7, h8, h10, h11⟩ := unhindered_parts h0
  exact ⟨h1, h2, h3, h4, h5, h6, h7, h8, h9, h10, h11⟩

theorem isSecond_clear {x : Engine} (h : ∀ p, x.pair = some p → p.next ≠ x.pc) (e : EngId) (sh : Shape) :
    isSecond x e sh = false := by
  unfold isSecond
  split
  · rfl
  · rename_i p hp
    simp [h p hp]

theorem readView_clear {x : Engine} (h : ∀ p, x.pair = some p → p.next ≠ x.pc) (e : EngId) (sh : Shape) :
    readView x e sh = x.regs := by
  unfold readView
  split
  · simp [isSecond_clear h]
  · rfl

theorem bpHit_none {x : Engine} (h : ∀ b ∈ x.bps, b.2.armed = false) : bpHit x = none := by
  simp only [bpHit, Option.map_eq_none_iff, List.find?_eq_none]
  intro b hb
  simp [h b hb]

theorem wpHit_none {x : Engine} (h : ∀ b ∈ x.wps, b.2.armed = false) (acc : List Access) : wpHit x acc = none := by
  simp only [wpHit, Option.map_eq_none_iff, List.find?_eq_none]
  intro b hb
  simp [h b hb]

theorem settleHalt_idle (s : State) (e : EngId) (h : (s.engAt e).haltAsked = false) : settleHalt s e = s := by
  simp [settleHalt, h]

/-- No interrupt of the performance counters is due before the next instruction of an unhindered engine, or the one after. -/
theorem unhindered_pmc {s : State} {e : EngId} {n : Nat} (h : unhindered s e n = true) (b : Bool) : pmcNow s e b = none := by
  simp only [unhindered, Bool.and_eq_true] at h
  have hq := h.1.1.2
  unfold pmcNow
  dsimp only
  rw [if_neg]
  rintro ⟨hd, -⟩
  rcases hd with hd | ⟨hd, -⟩ <;> simp [hd] at hq

/-- The words of the instruction at the point of an unhindered engine are fetched. -/
theorem checkFetch_unhindered {s : State} {e : EngId} {n : Nat} (h : unhindered s e n = true) (bp : Option Nat) :
    ∃ fps, checkFetch s e n bp = .ok fps ∧ fps.length ≤ n := by
  obtain ⟨-, -, h5, -, -, -, -, ps, h11, h12⟩ := unhindered_parts h
  have hf : ps.find? (fun p => fetchBad s e p) = none := by
    rw [List.find?_eq_none]; intro p hp; simp [h12 p hp]
  refine ⟨ps, ?_, ?_⟩
  · simp only [checkFetch, h11, hf]
  · have := translate_length _ _ _ _ _ h11
    simpa [accessVas] using this

/-- Nothing diverts an instruction of an unhindered engine that raises nothing and whose accesses are permitted. -/
theorem checkInstr_unhindered {s : State} {e : EngId} {sh : Shape} {pl : Plan} {aps : List (List Phys)}
    (hc : unhindered s e sh.len = true) (hx : instrExc (s.engAt e) e sh pl = none)
    (ht : translateAll s e pl.acc = .ok aps) : ∃ fps, checkInstr s e sh pl = .ok (fps, aps) ∧ fps.length ≤ sh.len := by
  obtain ⟨fps, hf, hlen⟩ := checkFetch_unhindered hc (bpCause (s.engAt e))
  obtain ⟨-, -, h5, h6, -⟩ := unhindered_parts hc
  have hb : bpCause (s.engAt e) = none := by simp [bpCause, bpHit_none h5]
  have hd : dbgCauseOf (s.engAt e) pl.acc = none := by simp [dbgCauseOf, hb, wpHit_none h6]
  exact ⟨fps, by simp only [checkInstr, hf, hx, checkData, ht, hd], hlen⟩

/-- An instruction that nothing diverts, of any place, runs its body on the device with its words fetched and its issue marked; it retires unless
the body raises, and then takes the exception. -/
theorem issue_runs {s : State} {e : EngId} {sh : Shape} {plan : Regs → Engine → Plan} {flow : Regs → Engine → Flow}
    {body : Regs → List (List Phys) → State → Except Exc State} {aps : List (List Phys)} (hc : unhindered s e sh.len = true)
    (ha : ((s.engAt e).slot && (s.engAt e).annul) = false)
    (hx : instrExc (s.engAt e) e sh (plan (s.engAt e).regs (s.engAt e)) = none)
    (ht : translateAll s e (plan (s.engAt e).regs (s.engAt e)).acc = .ok aps)
    (hd : (plan (s.engAt e).regs (s.engAt e)).dst = none ∨ ∀ p ∈ aps.flatten, regionOf p.pa ≠ .host)
    (hg : ∀ fps : List Phys, fps.length ≤ sh.len →
      chargeOf (s.engAt e) e sh (plan (s.engAt e).regs (s.engAt e)) fps aps ≤ 65536) :
    ∃ fps chg y, (s.engAt e).Booked y ∧
      issue sh plan flow body e s = settleHalt (match body (s.engAt e).regs aps (s.setEng e y) with
        | .error exc => takeExc (s.setEng e y) e sh.len exc
        | .ok t => retire t e (s.engAt e) sh fps chg (flow (s.engAt e).regs (s.engAt e))) e := by
  obtain ⟨h1, h4, h5, h6, h7, h8, h10, -⟩ := unhindered_parts hc
  obtain ⟨fps, hck, hlen⟩ := checkInstr_unhindered hc hx ht
  have hchg := hg fps hlen
  have hover : (!sh.unmetered && overruns (s.engAt e) (chargeOf (s.engAt e) e sh (plan (s.engAt e).regs (s.engAt e)) fps aps)) = false := by
    unfold overruns
    cases hmm : (s.engAt e).metered with
    | false => simp
    | true => have := h10 hmm; simp; omega
  have hpmc := unhindered_pmc hc sh.branch
  refine ⟨fps, chargeOf (s.engAt e) e sh (plan (s.engAt e).regs (s.engAt e)) fps aps, _, .trans (fetchLines_booked s (s.engAt e) e fps) (Engine.issued_booked _ (isSecond (s.engAt e) e sh)), ?_⟩
  unfold issue
  simp only [h1, Bool.not_true, Bool.false_eq_true, if_false, ha, readView_clear h4, hck]
  unfold execute
  have hf : (plan (s.engAt e).regs (s.engAt e)).dst = none ∨ aps.flatten.find? (fun p => decide (regionOf p.pa = .host)) = none :=
    hd.imp id fun h => by rw [List.find?_eq_none]; intro p hp; simp [h p hp]
  simp only [readView_clear h4, hover, hpmc, Bool.false_eq_true, if_false]
  rcases hf with hf | hf
  · simp only [hf]
    try (split <;> rename_i hb <;> simp only [hb])
  · simp only [hf]
    split
    · rename_i hq
      cases hq
    · split <;> rename_i hb <;> simp only [hb]

/-- No exception of the instruction itself, outside a slot and a repeat's end. -/
theorem instrExc_none {s : State} {e : EngId} {sh : Shape} {pl : Plan} (hc : clear s e sh.len = true)
    (hp : pl.emul = false ∧ pl.illegal = false ∧ pl.divz = false)
    (hl : sh.lacks = true → isReckoner e = true) (hm : sh.priv.rank ≤ (s.engAt e).psr.mode.rank) :
    instrExc (s.engAt e) e sh pl = none := by
  obtain ⟨h1, h2, h3, h4, h5, h6, h7, h8, h9, h10, ps, h11, h12⟩ := clear_parts hc
  have hs : (s.engAt e).inSlot sh.len = false := by simp [Engine.inSlot, h2, h3]
  have hr : ((s.engAt e).repeating && decide ((s.engAt e).pc = (s.engAt e).regs.bre)) = false := by
    simpa using h9
  have hm' : ¬ (s.engAt e).psr.mode.rank < sh.priv.rank := by omega
  have hl' : ¬ (sh.lacks = true ∧ (!isReckoner e) = true) := by
    rintro ⟨a, b⟩; rw [hl a] at b; cases b
  unfold instrExc
  simp only [hs, hr, hp.1, hp.2.1, hp.2.2, Bool.false_and, Bool.false_eq_true, and_false, if_false, hm', hl', or_false]

theorem clear_unhindered {s : State} {e : EngId} {n : Nat} (h : clear s e n = true) : unhindered s e n = true := by
  simp only [clear, Bool.and_eq_true] at h
  exact h.1.1.1

/-- An instruction with no data access that nothing diverts runs its body, and retires unless the body raises. -/
theorem issue_clear {s : State} {e : EngId} {sh : Shape} {plan : Regs → Engine → Plan} {flow : Regs → Engine → Flow}
    {body : Regs → List (List Phys) → State → Except Exc State} (hc : clear s e sh.len = true)
    (hp : (plan (s.engAt e).regs (s.engAt e)).emul = false ∧ (plan (s.engAt e).regs (s.engAt e)).illegal = false ∧
      (plan (s.engAt e).regs (s.engAt e)).divz = false ∧ (plan (s.engAt e).regs (s.engAt e)).acc = [])
    (hd : (plan (s.engAt e).regs (s.engAt e)).dst = none)
    (hl : sh.lacks = true → isReckoner e = true) (hm : sh.priv.rank ≤ (s.engAt e).psr.mode.rank)
    (hb : sh.base ≤ 1000) (hn : sh.len ≤ 3) :
    ∃ fps chg y, (s.engAt e).Booked y ∧
      issue sh plan flow body e s = settleHalt (match body (s.engAt e).regs [] (s.setEng e y) with
        | .error exc => takeExc (s.setEng e y) e sh.len exc
        | .ok t => retire t e (s.engAt e) sh fps chg (flow (s.engAt e).regs (s.engAt e))) e := by
  refine issue_runs (clear_unhindered hc) (by simp [(clear_parts hc).2.1]) (instrExc_none hc ⟨hp.1, hp.2.1, hp.2.2.1⟩ hl hm)
    (by simp [hp.2.2.2, translateAll]) (.inl hd) fun fps hf => ?_
  have := chargeOf_le (s.engAt e) e sh (plan (s.engAt e).regs (s.engAt e)) fps hp.2.2.2
  omega

/-- What the retirement in sequence of an instruction whose body answers a device with property T leaves: such a device with its engine retired. -/
theorem settle_seq {s t : State} {e : EngId} {sh : Shape} {fps : List Phys} {chg : Nat} (hc : clear s e sh.len = true)
    (h1 : (t.engAt e).haltAsked = false) (h2 : (t.engAt e).stepLeft = 0)
    (h3 : ((t.engAt e).repeating && (s.engAt e).pc == (t.engAt e).regs.bre) = false) :
    ∃ x, settleHalt (retire t e (s.engAt e) sh fps chg .seq) e = t.setEng e x ∧ x.regs = (t.engAt e).regs ∧
      x.pc = (s.engAt e).pc + BitVec.ofNat 48 sh.len ∧ x.npc = none ∧
      x.rest = { t.engAt e with npc := none, slot := false }.rest := by
  obtain ⟨-, -, hnpc, -⟩ := clear_parts hc
  obtain ⟨x, r1, r2, r3, r4, r5⟩ := retire_seq t e (s.engAt e) sh fps chg hnpc h3 h2
  refine ⟨x, ?_, r2, r3, r4, r5⟩
  rw [r1, settleHalt_idle]
  have := (congrArg Engine.haltAsked r5).trans h1
  simpa [Engine.rest] using this

/-- An instruction with no data access that nothing diverts, and whose body answers a device of which T holds: that device with its
engine retired in sequence. -/
theorem issue_ok_clear {s : State} {e : EngId} {sh : Shape} {plan : Regs → Engine → Plan}
    {body : Regs → List (List Phys) → State → Except Exc State} (T : State → Prop) (hc : clear s e sh.len = true)
    (hp : (plan (s.engAt e).regs (s.engAt e)).emul = false ∧ (plan (s.engAt e).regs (s.engAt e)).illegal = false ∧
      (plan (s.engAt e).regs (s.engAt e)).divz = false ∧ (plan (s.engAt e).regs (s.engAt e)).acc = [])
    (hd : (plan (s.engAt e).regs (s.engAt e)).dst = none)
    (hl : sh.lacks = true → isReckoner e = true) (hm : sh.priv.rank ≤ (s.engAt e).psr.mode.rank)
    (hb : sh.base ≤ 1000) (hn : sh.len ≤ 3)
    (ht : ∀ y, (s.engAt e).Booked y → ∃ t, body (s.engAt e).regs [] (s.setEng e y) = .ok t ∧ T t)
    (hT : ∀ t, T t → (t.engAt e).haltAsked = false ∧ (t.engAt e).stepLeft = 0 ∧
      ((t.engAt e).repeating && (s.engAt e).pc == (t.engAt e).regs.bre) = false) :
    ∃ t x, T t ∧ issue sh plan (fun _ _ => .seq) body e s = t.setEng e x ∧ x.regs = (t.engAt e).regs ∧
      x.pc = (s.engAt e).pc + BitVec.ofNat 48 sh.len ∧ x.npc = none ∧
      x.rest = { t.engAt e with npc := none, slot := false }.rest := by
  obtain ⟨fps, chg, y, hy, hi⟩ := issue_clear (flow := fun _ _ => .seq) (body := body) hc hp hd hl hm hb hn
  obtain ⟨t, hbody, hTt⟩ := ht y hy
  obtain ⟨a, b, c⟩ := hT t hTt
  obtain ⟨x, r⟩ := settle_seq (fps := fps) (chg := chg) hc a b c
  refine ⟨t, x, hTt, ?_, r.2⟩
  rw [hi, hbody]
  exact r.1

/-- The same where the body changes the engine alone, in a way that leaves the bookkeeping apart: so does the instruction. -/
theorem issue_modEng_clear {s : State} {e : EngId} {sh : Shape} {plan : Regs → Engine → Plan} {g : Regs → Engine → Engine}
    (hc : clear s e sh.len = true)
    (hp : (plan (s.engAt e).regs (s.engAt e)).emul = false ∧ (plan (s.engAt e).regs (s.engAt e)).illegal = false ∧
      (plan (s.engAt e).regs (s.engAt e)).divz = false ∧ (plan (s.engAt e).regs (s.engAt e)).acc = [])
    (hd : (plan (s.engAt e).regs (s.engAt e)).dst = none)
    (hl : sh.lacks = true → isReckoner e = true) (hm : sh.priv.rank ≤ (s.engAt e).psr.mode.rank)
    (hb : sh.base ≤ 1000) (hn : sh.len ≤ 3)
    (hg : ∀ y, (s.engAt e).Booked y → (g (s.engAt e).regs (s.engAt e)).Booked (g (s.engAt e).regs y))
    (h1 : (g (s.engAt e).regs (s.engAt e)).haltAsked = false) (h2 : (g (s.engAt e).regs (s.engAt e)).stepLeft = 0)
    (h3 : ((g (s.engAt e).regs (s.engAt e)).repeating &&
      (s.engAt e).pc == (g (s.engAt e).regs (s.engAt e)).regs.bre) = false) :
    ∃ t, issue sh plan (fun _ _ => .seq) (fun rd _ s => .ok (s.modEng e (g rd))) e s = t ∧
      (t.engAt e).regs = (g (s.engAt e).regs (s.engAt e)).regs ∧
      (t.engAt e).pc = (s.engAt e).pc + BitVec.ofNat 48 sh.len ∧ (t.engAt e).npc = none ∧
      (t.engAt e).rest = { g (s.engAt e).regs (s.engAt e) with npc := none, slot := false }.rest ∧ sameBut e s t := by
  obtain ⟨t, x, ⟨y, hy, rfl⟩, r1, r2, r3, r4, r5⟩ := issue_ok_clear
    (fun t => ∃ y, (s.engAt e).Booked y ∧ t = s.setEng e (g (s.engAt e).regs y))
    (body := fun rd _ s => .ok (s.modEng e (g rd))) hc hp hd hl hm hb hn
    (fun y hy => ⟨_, rfl, y, hy, by simp [State.modEng, setEng_setEng]⟩)
    (by
      rintro t ⟨y, hy, rfl⟩
      have k := hg y hy
      simp only [State.engAt_setEng_self]
      exact ⟨k.haltAsked.trans h1, k.stepLeft.trans h2, by rw [k.repeating, k.2.1]; exact h3⟩)
  have k := hg y hy
  refine ⟨_, r1, ?_, ?_, ?_, ?_, rfl, fun i hi => ?_⟩
  · simpa [k.2.1] using r2
  · simpa using r3
  · simpa using r4
  · simp only [State.engAt_setEng_self] at r5 ⊢
    rw [r5]
    have := k.1
    simp only [Engine.rest, Engine.mk.injEq] at this ⊢
    simp [this]
  · rw [State.engAt_setEng_ne _ _ hi, State.engAt_setEng_ne _ _ hi]

/-- An instruction of the register shape, where nothing diverts it: only its engine changes, and there only the registers, the pc and
the bookkeeping of the retirement. -/
theorem issueRegs_clear {s : State} {e : EngId} {sh : Shape} {plan : Regs → Engine → Plan} {f : Regs → Regs → Regs}
    (hc : clear s e sh.len = true)
    (hp : (plan (s.engAt e).regs (s.engAt e)).emul = false ∧ (plan (s.engAt e).regs (s.engAt e)).illegal = false ∧
      (plan (s.engAt e).regs (s.engAt e)).divz = false ∧ (plan (s.engAt e).regs (s.engAt e)).acc = [])
    (hd : (plan (s.engAt e).regs (s.engAt e)).dst = none)
    (hl : sh.lacks = true → isReckoner e = true) (hm : sh.priv.rank ≤ (s.engAt e).psr.mode.rank)
    (hb : sh.base ≤ 1000) (hn : sh.len ≤ 3)
    (hf : (f (s.engAt e).regs (s.engAt e).regs).brc = (s.engAt e).regs.brc ∧
      (f (s.engAt e).regs (s.engAt e).regs).bre = (s.engAt e).regs.bre) :
    ∃ t, issueRegs sh plan f e s = .next t ∧ (t.engAt e).regs = f (s.engAt e).regs (s.engAt e).regs ∧
      (t.engAt e).pc = (s.engAt e).pc + BitVec.ofNat 48 sh.len ∧ (t.engAt e).npc = none ∧
      (t.engAt e).rest = (s.engAt e).rest ∧ sameBut e s t := by
  obtain ⟨h1, h2, h3, h4, h5, h6, h7, h8, h9, h10, -⟩ := clear_parts hc
  obtain ⟨t, i1, i2, i3, i4, i5, i6⟩ := issue_modEng_clear (g := fun rd x => { x with regs := f rd x.regs })
    hc hp hd hl hm hb hn (fun y hy => ⟨hy.1, by rw [hy.2.1], hy.2.2⟩) h7 h8 (by
      simp only [Engine.repeating, hf.1, hf.2] at h9 ⊢
      exact h9)
  refine ⟨t, congrArg _ i1, i2, i3, i4, ?_, i6⟩
  rw [i5]
  simp only [Engine.rest, h2, h3]

/-! ### The shapes of the register instructions -/

section
variable {i : Instr} {s : State} {e : EngId} {n : Nat} {words : List Word} {base : Nat}

/-- An instruction whose meaning is of the register shape. -/
theorem regs_next {sh : Shape} {plan : Regs → Engine → Plan} {f : Regs → Regs → Regs}
    (hi : exec i s = issueRegs sh plan f e s) (hw : sh.len = n) (hn : n ≤ 3) (hb : sh.base ≤ 1000)
    (hp : (plan (s.engAt e).regs (s.engAt e)).emul = false ∧ (plan (s.engAt e).regs (s.engAt e)).illegal = false ∧
      (plan (s.engAt e).regs (s.engAt e)).divz = false ∧ (plan (s.engAt e).regs (s.engAt e)).acc = [])
    (hd : (plan (s.engAt e).regs (s.engAt e)).dst = none)
    (hl : sh.lacks = true → isReckoner e = true) (hm : sh.priv.rank ≤ (s.engAt e).psr.mode.rank)
    (hf : (f (s.engAt e).regs (s.engAt e).regs).brc = (s.engAt e).regs.brc ∧
      (f (s.engAt e).regs (s.engAt e).regs).bre = (s.engAt e).regs.bre)
    (hc : clear s e n = true) {r : Regs} (hr : f (s.engAt e).regs (s.engAt e).regs = r) : regsNext i s e n r := by
  subst hw hr
  obtain ⟨t, h1, h2⟩ := issueRegs_clear hc hp hd hl hm hb hn hf
  exact ⟨t, hi.trans h1, h2⟩

theorem wordOp_next {y : Word × Flags} {d : Nat} {f : Regs → Word × Flags} (hi : exec i s = wordOp words base d f e s)
    (hw : words.length = n) (hn : n ≤ 3) (hb : base ≤ 1000) (hc : clear s e n = true)
    (hr : f (s.engAt e).regs = y) : wordNext i s e n d y :=
  regs_next hi hw hn hb ⟨rfl, rfl, rfl, rfl⟩ rfl nofun (Nat.zero_le _) ⟨rfl, rfl⟩ hc (by rw [hr])

theorem wordMove_next {y : Word} {d : Nat} {f : Regs → Word} (hi : exec i s = wordMove words base d f e s)
    (hw : words.length = n) (hn : n ≤ 3) (hb : base ≤ 1000) (hc : clear s e n = true)
    (hr : f (s.engAt e).regs = y) : regsNext i s e n ((s.regsOf e).setW d y) :=
  regs_next hi hw hn hb ⟨rfl, rfl, rfl, rfl⟩ rfl nofun (Nat.zero_le _) ⟨rfl, rfl⟩ hc (by rw [hr])

theorem longOp_next {y : Long × Flags} {d : Nat} {f : Regs → Long × Flags} (hi : exec i s = longOp words base d f e s)
    (hw : words.length = n) (hn : n ≤ 3) (hb : base ≤ 1000) (hc : clear s e n = true)
    (hr : f (s.engAt e).regs = y) : longNext i s e n d y :=
  regs_next hi hw hn hb ⟨rfl, rfl, rfl, rfl⟩ rfl nofun (Nat.zero_le _) ⟨rfl, rfl⟩ hc (by rw [hr])

theorem longMove_next {y : Long} {d : Nat} {f : Regs → Long} (hi : exec i s = longMove words base d f e s)
    (hw : words.length = n) (hn : n ≤ 3) (hb : base ≤ 1000) (hc : clear s e n = true)
    (hr : f (s.engAt e).regs = y) : regsNext i s e n ((s.regsOf e).setL d y) :=
  regs_next hi hw hn hb ⟨rfl, rfl, rfl, rfl⟩ rfl nofun (Nat.zero_le _) ⟨rfl, rfl⟩ hc (by rw [hr])

theorem flagOp_next {y : Flags} {f : Regs → Flags} (hi : exec i s = flagOp words f e s)
    (hw : words.length = n) (hn : n ≤ 3) (hc : clear s e n = true)
    (hr : f (s.engAt e).regs = y) : regsNext i s e n ((s.regsOf e).setFl y) :=
  regs_next hi hw hn (Nat.le_of_ble_eq_true rfl) ⟨rfl, rfl, rfl, rfl⟩ rfl nofun (Nat.zero_le _) ⟨rfl, rfl⟩ hc (by rw [hr])

theorem addrMove_next {y : Addr} {d : Nat} {f : Regs → Addr} (hi : exec i s = addrMove words d f e s)
    (hw : words.length = n) (hn : n ≤ 3) (hc : clear s e n = true)
    (hr : f (s.engAt e).regs = y) : regsNext i s e n ((s.regsOf e).setA d y) :=
  regs_next hi hw hn (Nat.le_of_ble_eq_true rfl) ⟨rfl, rfl, rfl, rfl⟩ rfl nofun (Nat.zero_le _) ⟨rfl, rfl⟩ hc (by rw [hr])

theorem rodOp_next {y : Rod × Flags} {k : Nat} {lacks : Bool} {f : Regs → Rod × Flags} (hi : exec i s = rodOp words base k lacks f e s)
    (hl : lacks = true → isReckoner e = true)
    (hw : words.length = n) (hn : n ≤ 3) (hb : base ≤ 1000) (hc : clear s e n = true)
    (hr : f (s.engAt e).regs = y) : rodNext i s e n k y :=
  regs_next hi hw hn hb ⟨rfl, rfl, rfl, rfl⟩ rfl hl (Nat.zero_le _) ⟨rfl, rfl⟩ hc (by rw [hr])

theorem rodMove_next {y : Rod} {k : Nat} {f : Regs → Rod} (hi : exec i s = rodMove words k f e s)
    (hw : words.length = n) (hn : n ≤ 3) (hc : clear s e n = true)
    (hr : f (s.engAt e).regs = y) : regsNext i s e n ((s.regsOf e).setK k y) :=
  regs_next hi hw hn (Nat.le_of_ble_eq_true rfl) ⟨rfl, rfl, rfl, rfl⟩ rfl nofun (Nat.zero_le _) ⟨rfl, rfl⟩ hc (by rw [hr])

theorem laneOp_next {d : Nat} {act : Regs → Nat → Bool} {z : Bool} {f : Regs → Nat → LaneRes}
    (hi : exec i s = laneOp words base d act z f e s) (hr : isReckoner e = true)
    (hw : words.length = n) (hn : n ≤ 3) (hb : base ≤ 1000) (hc : clear s e n = true)
    {A : Nat → Bool} {F : Nat → LaneRes} (ha : act (s.engAt e).regs = A) (hf : f (s.engAt e).regs = F) :
    laneNext i s e n d A z F := by
  subst ha hf
  exact regs_next hi hw hn hb ⟨rfl, rfl, rfl, rfl⟩ rfl (fun _ => hr) (Nat.zero_le _) ⟨rfl, rfl⟩ hc rfl

theorem accOp_next {u : Nat} {act : Regs → Nat → Bool} {f : Regs → Nat → Int}
    (hi : exec i s = accOp words u act f e s) (hr : isReckoner e = true)
    (hw : words.length = n) (hn : n ≤ 3) (hc : clear s e n = true)
    {A : Nat → Bool} {F : Nat → Int} (ha : act (s.engAt e).regs = A) (hf : f (s.engAt e).regs = F) :
    accNext i s e n u A F := by
  subst ha hf
  exact regs_next hi hw hn (Nat.le_of_ble_eq_true rfl) ⟨rfl, rfl, rfl, rfl⟩ rfl (fun _ => hr) (Nat.zero_le _) ⟨rfl, rfl⟩ hc rfl

theorem predOp_next {y : Word} {d : Nat} {f : Regs → Word}
    (hi : exec i s = predOp words d f e s) (hr : isReckoner e = true)
    (hw : words.length = n) (hn : n ≤ 3) (hc : clear s e n = true) (hy : f (s.engAt e).regs = y) :
    regsNext i s e n ((s.regsOf e).setP d y) :=
  regs_next hi hw hn (Nat.le_of_ble_eq_true rfl) ⟨rfl, rfl, rfl, rfl⟩ rfl (fun _ => hr) (Nat.zero_le _) ⟨rfl, rfl⟩ hc (by rw [hy])

theorem cmpLanes_next {fn : Nat} {p : Fin 4} {a b : Fin 16} {m : LMask} {f : Word → Word → Bool}
    (hi : exec i s = cmpLanes fn p a b m f e s) (hr : isReckoner e = true) (hc : clear s e 2 = true)
    {F : Nat → Bool} (hf : (fun j => f ((s.engAt e).regs.rv a.val j) ((s.engAt e).regs.rv b.val j)) = F) :
    predNext i s e p.val (longActive (s.engAt e).regs m) F := by
  subst hf
  exact regs_next hi rfl (Nat.le_of_ble_eq_true rfl) (Nat.le_of_ble_eq_true rfl) ⟨rfl, rfl, rfl, rfl⟩ rfl (fun _ => hr)
    (Nat.zero_le _) ⟨rfl, rfl⟩ hc rfl

/-- A narrowing whose rounding code is not reserved. -/
theorem narrowOp_next {N : Nat} {dw : List Res} {put : Regs → BitVec N → Regs} {src : Regs → Int} {sh : Nat}
    {mode : Regs → BitVec 3} {x : Sfx} {res : Nat} {residue : Bool}
    (hi : exec i s = narrowOp N words dw put src sh mode x res residue e s) (hw : words.length = n) (hn : n ≤ 3)
    (hm : (mode (s.regsOf e)).toNat < 6) (hc : clear s e n = true)
    (hb : ∀ r y, (put r y).brc = r.brc ∧ (put r y).bre = r.bre) :
    regsNext i s e n (narrowed put (s.regsOf e) res (mode (s.regsOf e)) (narrow N (src (s.regsOf e)) sh (mode (s.regsOf e))
      (saturates x (s.regsOf e).mw) ((s.regsOf e).re res) (s.regsOf e).fl)) := by
  unfold narrowOp at hi
  refine regs_next hi hw hn (Nat.le_of_ble_eq_true rfl) ⟨decide_eq_false (Nat.not_le_of_lt hm), rfl, rfl, rfl⟩ rfl
    (by nofun) (Nat.zero_le _) ?_ hc rfl
  dsimp only
  split
  · exact hb _ _
  · exact hb _ _

/-- A lane narrowing whose rounding code is not reserved. -/
theorem vrndOp_next {d u v sh : Nat} {act : Regs → Nat → Bool} {z : Bool} {mode : Regs → BitVec 3} {x : Sfx} {residue : Bool}
    (hi : exec i s = vrndOp words d u v sh act z mode x residue e s) (hr : isReckoner e = true) (hw : words.length = n)
    (hn : n ≤ 3) (hm : (mode (s.regsOf e)).toNat < 6) (hc : clear s e n = true) :
    regsNext i s e n (vnarrowed (s.regsOf e) d u v sh (act (s.regsOf e)) z (mode (s.regsOf e))
      (saturates x (s.regsOf e).mw)) := by
  unfold vrndOp at hi
  refine regs_next hi hw hn (Nat.le_of_ble_eq_true rfl) ⟨decide_eq_false (Nat.not_le_of_lt hm), rfl, rfl, rfl⟩ rfl
    (fun _ => hr) (Nat.zero_le _) ?_ hc rfl
  dsimp only
  split
  · exact ⟨rfl, rfl⟩
  · exact ⟨rfl, rfl⟩

/-- A divide that does not trap. -/
theorem divOp_next {y : Regs} {writes : List Res} {zero : Regs → Bool} {f : Regs → Regs → Regs}
    (hi : exec i s = divOp words base writes zero f e s) (hz : ((s.engAt e).regs.mw.dzt && zero (s.engAt e).regs) = false)
    (hw : words.length = n) (hn : n ≤ 3) (hb : base ≤ 1000)
    (hf : (f (s.engAt e).regs (s.engAt e).regs).brc = (s.engAt e).regs.brc ∧
      (f (s.engAt e).regs (s.engAt e).regs).bre = (s.engAt e).regs.bre) (hc : clear s e n = true)
    (hr : f (s.engAt e).regs (s.engAt e).regs = y) : regsNext i s e n y :=
  regs_next hi hw hn hb ⟨rfl, rfl, hz, rfl⟩ rfl nofun (Nat.zero_le _) hf hc hr

end

end Sys2Proof.Machine
end

