-- ==== Sys2Proof/Laws/Except.lean ====
section
/-! SUPPORT. What taking an exception does to an engine whose store buffer is empty: entry to a kernel vector, to the
machine-check vector, and checkstop. -/
namespace Sys2Proof.Machine

theorem drainAll_empty (s : State) (e : EngId) (h : (s.engAt e).sb = []) : drainAll s e = s := by
  simp [drainAll, h, drainN]

/-- Entry to a kernel vector outside a handler, from user or kernel mode, with nothing to drain and no stepping. -/
theorem takeExc_kern (s : State) (e : EngId) (len code sub l : Nat) (bad : Option Addr) (tw : List Word)
    (hsb : (s.engAt e).sb = []) (hm : (s.engAt e).psr.mode ≠ .machine) (hl : (s.engAt e).psr.hl = false)
    (hs : (s.engAt e).stepLeft = 0) (hc : code ≠ 8) (h1 : code ≠ 1) :
    ∃ x y, (s.engAt e).Booked x ∧ takeExc s e len (.kern code sub l bad tw) = s.setEng e y ∧
      y = { enterKernel x (if x.metered then .sync else .other) code sub l 0 (vectorOffset code) x.pc
              (x.npc.getD (x.pc + BitVec.ofNat 48 len)) with
            run := .running, skipDbg := false, skipWp := false
            ctrl := { (enterKernel x (if x.metered then .sync else .other) code sub l 0 (vectorOffset code) x.pc
              (x.npc.getD (x.pc + BitVec.ofNat 48 len))).ctrl with
                badaddr := bad.getD (enterKernel x (if x.metered then .sync else .other) code sub l 0 (vectorOffset code) x.pc
                  (x.npc.getD (x.pc + BitVec.ofNat 48 len))).ctrl.badaddr }.withTw tw } := by
  have hb := Engine.count_booked (s.engAt e) (perfKeys e) 0x0B 1
  refine ⟨_, _, hb, ?_, rfl⟩
  unfold takeExc
  simp only [spillLine, drainAll_empty s e hsb, openRead, hc, if_false, badPlace, uncorrSeen]
  have e1 : ((s.engAt e).count (perfKeys e) 0x0B 1).psr = (s.engAt e).psr := hb.psr
  have e2 : ((s.engAt e).count (perfKeys e) 0x0B 1).stepLeft = 0 := hb.stepLeft.trans hs
  simp only [e1, e2, hm, hl, h1, lockstepDecides, Bool.and_false, if_false, if_true, Bool.false_eq_true, or_self]

/-- An exception outside a handler, from user or kernel mode, with nothing to drain and no stepping, as the statements say it. -/
theorem takeExc_taken (s : State) (e : EngId) (len code sub l : Nat) (bad : Option Addr) (tw : List Word)
    (hsb : (s.engAt e).sb = []) (hm : (s.engAt e).psr.mode ≠ .machine) (hl : (s.engAt e).psr.hl = false)
    (hs : (s.engAt e).stepLeft = 0) (hh : (s.engAt e).haltAsked = false) (hc : code ≠ 8) (h1 : code ≠ 1)
    (hn : (s.engAt e).npc = none) (hr : (s.engAt e).run = .running) (hslot : (s.engAt e).slot = false) :
    ∃ t, settleHalt (takeExc s e len (.kern code sub l bad tw)) e = t ∧
      kernTaken (s.engAt e) (t.engAt e) len (causeWord code sub l 0) (vectorOffset code) ∧
      (∀ a b c, tw = [a, b, c] → (t.engAt e).ctrl.tw0 = a ∧ (t.engAt e).ctrl.tw1 = b ∧ (t.engAt e).ctrl.tw2 = c) ∧
      sameBut e s t := by
  obtain ⟨x, y, hb, h, rfl⟩ := takeExc_kern s e len code sub l bad tw hsb hm hl hs hc h1
  rw [h]
  have hx : ∀ c : Ctrl, (c.withTw tw).spot = c.spot ∧ (c.withTw tw).snext = c.snext ∧ (c.withTw tw).cause = c.cause ∧
      { c.withTw tw with tw0 := 0#16, tw1 := 0#16, tw2 := 0#16 } = { c with tw0 := 0#16, tw1 := 0#16, tw2 := 0#16 } := by
    intro c
    unfold Ctrl.withTw
    split <;> exact ⟨rfl, rfl, rfl, rfl⟩
  refine ⟨_, rfl, ?_⟩
  rw [settleHalt_idle]
  · refine ⟨⟨?_, ?_, ?_, ?_, ?_, ?_, ?_, ?_, ?_, ?_⟩, ?_, rfl, fun g hg => State.engAt_setEng_ne _ _ hg⟩
    · simp [(hx _).1, enterKernel, hb.2.2]
    · simp [(hx _).2.1, enterKernel, hb.2.2, hb.npc, hn]
    · simp [(hx _).2.2.1, enterKernel]
    · simp [enterKernel, hb.psr, h1]
    · have : x.ctrl.vbase = (s.engAt e).ctrl.vbase := by
        have := congrArg (fun z : Engine => z.ctrl.vbase) hb.1
        exact this
      simp [enterKernel, this]
    · simp [enterKernel]
    · simp [enterKernel, hb.2.1]
    · simp [enterKernel, hb.tlb]
    · simp [enterKernel, hb.asid]
    · have hbr := hb.1
      have e4 : ∀ c : Ctrl, { c.withTw tw with spot := 0#48, snext := 0#48, cause := 0#16, badaddr := 0#48, tw0 := 0#16, tw1 := 0#16, tw2 := 0#16, ipend := (c.withTw tw).ipend &&& 0xFFF7#16 } =
          { c with spot := 0#48, snext := 0#48, cause := 0#16, badaddr := 0#48, tw0 := 0#16, tw1 := 0#16, tw2 := 0#16, ipend := c.ipend &&& 0xFFF7#16 } := by
        intro c
        unfold Ctrl.withTw
        split <;> rfl
      simp only [State.engAt_setEng_self, Engine.aside, Engine.rest, enterKernel, Engine.mk.injEq, e4] at hbr ⊢
      simp [hbr, hr, hslot, hn]
      obtain ⟨-, -, h2, -⟩ := hbr
      rw [Ctrl.mk.injEq] at h2
      simp [h2]
    · rintro a b c rfl
      simp [Ctrl.withTw]
  · rw [State.engAt_setEng_self]
    exact hb.haltAsked.trans hh

/-- An instruction whose own check raises an exception, where nothing else diverts it. -/
theorem issue_exc {s : State} {e : EngId} {sh : Shape} {plan : Regs → Engine → Plan} {flow : Regs → Engine → Flow}
    {body : Regs → List (List Phys) → State → Except Exc State} {exc : Exc} (hc : clear s e sh.len = true)
    (hx : instrExc (s.engAt e) e sh (plan (s.engAt e).regs (s.engAt e)) = some exc) (hh : exc.isHostLoad = false) :
    issue sh plan flow body e s = settleHalt (takeExc s e sh.len exc) e := by
  obtain ⟨h1, h2, -, h4, h5, -⟩ := clear_parts hc
  obtain ⟨fps, hf, -⟩ := checkFetch_unhindered (clear_unhindered hc) none
  have hb : bpCause (s.engAt e) = none := by simp [bpCause, bpHit_none h5]
  unfold issue
  simp only [h1, h2, Bool.not_true, Bool.false_eq_true, if_false, Bool.false_and, readView_clear h4]
  simp only [checkInstr, hf, hx, hb, divert, hh, Bool.false_eq_true, if_false]

/-- What an exception leaves is said the same of an engine and of one that differs in a retirement's bookkeeping. -/
theorem kernTaken_booked {x x' y : Engine} {n : Nat} {cause : Word} {off : Nat} (hb : x.Booked x')
    (h : kernTaken x' y n cause off) : kernTaken x y n cause off := by
  obtain ⟨h1, h2, h3, h4, h5, h6, h7, ht, ha, h8⟩ := h
  have hv : x'.ctrl.vbase = x.ctrl.vbase := by
    have := congrArg (fun z : Engine => z.ctrl.vbase) hb.1
    exact this
  refine ⟨h1.trans hb.2.2, h2.trans (by rw [hb.2.2]), h3, by rw [h4, hb.psr], by rw [h5, hv], h6, h7.trans hb.2.1, ht.trans hb.tlb,
    ha.trans hb.asid, ?_⟩
  rw [h8]
  simp only [Engine.aside, hb.1]

/-- An instruction whose effect is an exception, which is taken. -/
theorem issue_raised {s : State} {e : EngId} {sh : Shape} {plan : Regs → Engine → Plan} {flow : Regs → Engine → Flow}
    {body : Regs → List (List Phys) → State → Except Exc State} {code sub l : Nat} {bad : Option Addr} {tw : List Word}
    (hc : clear s e sh.len = true) (ho : excOpen s e = true)
    (hp : (plan (s.engAt e).regs (s.engAt e)).emul = false ∧ (plan (s.engAt e).regs (s.engAt e)).illegal = false ∧
      (plan (s.engAt e).regs (s.engAt e)).divz = false ∧ (plan (s.engAt e).regs (s.engAt e)).acc = [])
    (hd : (plan (s.engAt e).regs (s.engAt e)).dst = none)
    (hl : sh.lacks = true → isReckoner e = true) (hm : sh.priv.rank ≤ (s.engAt e).psr.mode.rank)
    (hb : sh.base ≤ 1000) (hn : sh.len ≤ 3) 
    (hx : ∀ y, (s.engAt e).Booked y → body (s.engAt e).regs [] (s.setEng e y) = .error (.kern code sub l bad tw))
    (h8 : code ≠ 8) (h1 : code ≠ 1) :
    ∃ t, issue sh plan flow body e s = t ∧
      kernTaken (s.engAt e) (t.engAt e) sh.len (causeWord code sub l 0) (vectorOffset code) ∧ sameBut e s t := by
  obtain ⟨fps, chg, y, hbk, hi⟩ := issue_clear (flow := flow) (body := body) hc hp hd hl hm hb hn
  obtain ⟨hrun, hslot, hnpc, -, -, -, hhalt, hstep, -⟩ := clear_parts hc
  simp only [excOpen, Bool.and_eq_true, decide_eq_true_eq, Bool.not_eq_true', List.isEmpty_iff] at ho
  obtain ⟨⟨hmode, hhl⟩, hsb⟩ := ho
  have hr : (s.engAt e).run = .running := by
    simp only [canIssue, Bool.and_eq_true, decide_eq_true_eq] at hrun
    exact hrun.1
  rw [hi, hx y hbk]
  obtain ⟨t, h, k, -, f⟩ := takeExc_taken (s.setEng e y) e sh.len code sub l bad tw (by simpa [hbk.sb] using hsb)
    (by simpa [hbk.psr] using hmode) (by simpa [hbk.psr] using hhl) (by simpa [hbk.stepLeft] using hstep)
    (by simpa [hbk.haltAsked] using hhalt) h8 h1 (by simpa [hbk.npc] using hnpc) (by simpa [hbk.run] using hr)
    (by simpa [hbk.slot] using hslot)
  refine ⟨t, h, kernTaken_booked hbk (by simpa using k), f.1, fun g hg => ?_⟩
  rw [f.2 g hg, State.engAt_setEng_ne _ _ hg]

end Sys2Proof.Machine
end

