-- ==== Sys2Proof/Laws/Mem.lean ====
section
/-! SUPPORT. What writing the device's memory does: the words written read back, every other byte is as it was, and the
canonical form is kept. -/
namespace Sys2Proof.Machine

theorem memByte_setByte (m : List Host.Cell) (a i : Nat) (b : Byte) :
    memByte (setByte m a b) i = if i = a then b else memByte m i := tblGet_set ..

@[simp] theorem memByte_setByte_self (m : List Host.Cell) (a : Nat) (b : Byte) : memByte (setByte m a b) a = b :=
  tblGet_set_self ..

theorem memByte_setByte_ne (m : List Host.Cell) {a i : Nat} (b : Byte) (h : i ≠ a) :
    memByte (setByte m a b) i = memByte m i := tblGet_set_ne _ _ _ h

theorem setByte_wf (m : List Host.Cell) (a : Nat) (b : Byte) (h : Memory.wf m = true) : Memory.wf (setByte m a b) = true :=
  tblWf_set _ _ _ _ h

theorem setWord_wf (m : List Host.Cell) (x : Nat) (w : Word) (h : Memory.wf m = true) : Memory.wf (setWord m x w) = true :=
  setByte_wf _ _ _ (setByte_wf _ _ _ h)

theorem setWords_wf (m : List Host.Cell) (x : Nat) (ws : List Word) (h : Memory.wf m = true) :
    Memory.wf (setWords m x ws) = true := by
  induction ws generalizing m x with
  | nil => exact h
  | cons w ws ih => exact ih _ _ (setWord_wf m x w h)

/-- A word reads back; the bytes outside it are as they were. -/
@[simp] theorem memWord_setWord_self (m : List Host.Cell) (x : Nat) (w : Word) : memWord (setWord m x w) x = w := by
  have h : w.extractLsb' 8 8 ++ w.extractLsb' 0 8 = w := by
    ext i hi
    simp only [BitVec.getElem_append, BitVec.getElem_extractLsb']
    split
    · simp only [Nat.zero_add]; rw [BitVec.getLsbD_eq_getElem]
    · rw [show 8 + (i - 8) = i by omega, BitVec.getLsbD_eq_getElem]
  simp only [memWord, setWord, memByte_setByte_self]
  rw [memByte_setByte_ne _ _ (by omega), memByte_setByte_self]
  exact h

theorem memByte_setWord_ne (m : List Host.Cell) {x a : Nat} (w : Word) (h : a < 2 * x ∨ 2 * x + 2 ≤ a) :
    memByte (setWord m x w) a = memByte m a := by
  rw [setWord, memByte_setByte_ne _ _ (by omega), memByte_setByte_ne _ _ (by omega)]

theorem memWord_setWord_ne (m : List Host.Cell) {x y : Nat} (w : Word) (h : y ≠ x) :
    memWord (setWord m x w) y = memWord m y := by
  simp only [memWord]
  rw [memByte_setWord_ne _ _ (by omega), memByte_setWord_ne _ _ (by omega)]

/-- Bytes outside the words written are as they were. -/
theorem memByte_setWords_ne (m : List Host.Cell) {x a : Nat} (ws : List Word)
    (h : a < 2 * x ∨ 2 * (x + ws.length) ≤ a) : memByte (setWords m x ws) a = memByte m a := by
  induction ws generalizing m x with
  | nil => rfl
  | cons w ws ih =>
    simp only [List.length_cons] at h
    rw [setWords, ih _ (by omega), memByte_setWord_ne _ _ (by omega)]

theorem memWord_setWords_ne (m : List Host.Cell) {x y : Nat} (ws : List Word)
    (h : y < x ∨ x + ws.length ≤ y) : memWord (setWords m x ws) y = memWord m y := by
  simp only [memWord]
  rw [memByte_setWords_ne _ _ (by omega), memByte_setWords_ne _ _ (by omega)]

/-- The words written read back. -/
theorem memWord_setWords (m : List Host.Cell) (x : Nat) (ws : List Word) (i : Nat) (h : i < ws.length) :
    memWord (setWords m x ws) (x + i) = ws[i] := by
  induction ws generalizing m x i with
  | nil => simp at h
  | cons w ws ih =>
    cases i with
    | zero =>
      rw [setWords, Nat.add_zero, memWord_setWords_ne _ _ (by omega)]
      simp
    | succ i =>
      rw [setWords, show x + (i + 1) = x + 1 + i by omega, ih _ _ _ (by simpa using h)]
      simp

theorem memWords_setWords (m : List Host.Cell) (x : Nat) (ws : List Word) :
    memWords (setWords m x ws) x ws.length = ws := by
  have key : ∀ (n y : Nat) (m : List Host.Cell), memWords m y n = (List.range n).map fun i => memWord m (y + i) := by
    intro n
    induction n with
    | zero => intros; rfl
    | succ n ih =>
      intro y m
      rw [memWords, ih, List.range_succ_eq_map]
      simp [Function.comp_def, Nat.add_assoc, Nat.add_comm 1]
  rw [key]
  apply List.ext_getElem
  · simp
  · intro i h1 h2
    simp [memWord_setWords m x ws i h2]

@[simp] theorem writeMem_wf (s : State) (pa : Nat) (ws : List Word) (h : Memory.wf s.mem = true) :
    Memory.wf (s.writeMem pa ws).mem = true := setWords_wf _ _ _ h

end Sys2Proof.Machine
end

