-- ==== Sys2Proof/Laws/Access.lean ====
section
/-! SUPPORT. Issue of an instruction with data accesses, in a delay slot or outside one: what `issue` answers where the engine is
`unhindered`, its accesses are permitted and no word of them waits for the host. -/
namespace Sys2Proof.Machine

theorem regionCost_near (e : EngId) (r : Region) (b : Bool) (h : r ≠ .host ∨ b = true) :
    (regionCost e r b).1 ≤ 1600 ∧ (regionCost e r b).2 ≤ 16 := by
  cases r <;> simp only [regionCost] <;> (repeat' split) <;> simp
  simp_all

theorem translate_mem {s : State} {e : EngId} {vas : List Addr} {k : Kind} {ps : List Phys}
    (h : translate s e vas k = .ok ps) : ps.length ≤ vas.length := translate_length s e vas k ps h

/-- The memory part of an access of at most 48 words that no host load is in. -/
theorem memCharge_le (e : EngId) (k : Kind) (ps : List Phys) (hn : ps.length ≤ 48)
    (h : k = .store ∨ ∀ p ∈ ps, regionOf p.pa ≠ .host) : memCharge e k ps ≤ 13500 := by
  cases ps with
  | nil => simp [memCharge]
  | cons p q =>
    have hh : ∀ b, k = .store ∧ b = true ∨ k ≠ .store →
        (regionCost e (regionOf p.pa) b).1 ≤ 1600 ∧ (regionCost e (regionOf p.pa) b).2 ≤ 16 := by
      intro b hb
      refine regionCost_near e _ b ?_
      rcases hb with ⟨-, hb⟩ | hb
      · exact .inr hb
      · rcases h with h | h
        · exact absurd h hb
        · exact .inl (h p (by simp))
    have arith : ∀ lo n c1 c2 : Nat, n ≤ 47 → c1 ≤ 1600 → c2 ≤ 16 →
        ((lo + (n + 1) - 1) / 16 - lo / 16 + 1) * c1 +
          ((lo + (n + 1) - 1) / 4 - lo / 4 + 1 - ((lo + (n + 1) - 1) / 16 - lo / 16 + 1)) * c2 ≤ 6608 := by
      intro lo n c1 c2 h1 h2 h3
      have a1 : (lo + (n + 1) - 1) / 16 - lo / 16 + 1 ≤ 4 := by omega
      have a2 : (lo + (n + 1) - 1) / 4 - lo / 4 + 1 - ((lo + (n + 1) - 1) / 16 - lo / 16 + 1) ≤ 13 := by omega
      have b1 := Nat.mul_le_mul a1 h2
      have b2 := Nat.mul_le_mul a2 h3
      omega
    simp only [List.length_cons] at hn
    have part : ∀ b, k = .store ∧ b = true ∨ k ≠ .store → _ := fun b hb =>
      arith p.va.toNat q.length _ _ (by omega) (hh b hb).1 (hh b hb).2
    cases k with
    | load => have := part false (.inr (by simp)); simp only [memCharge, List.length_cons]; omega
    | store => have := part true (.inl ⟨rfl, rfl⟩); simp only [memCharge, List.length_cons]; omega
    | atomic =>
      have h1 := part true (.inr (by simp))
      have h2 := part false (.inr (by simp))
      simp only [memCharge, List.length_cons]
      omega
    | wback => have := hh true (.inr (by simp)); simp only [memCharge]; omega
    | fetch => simp [memCharge]
    | maint => simp [memCharge]

theorem accessVas_length (va : Addr) (z : Nat) : (accessVas va z).length = z := by simp [accessVas]

/-- The charge of an instruction of one access. -/
theorem chargeOf_one (x : Engine) (e : EngId) (sh : Shape) (pl : Plan) (fps : List Phys) (a : Access) (ps : List Phys)
    (h : pl.acc = [a]) (hn : ps.length ≤ 48) (hh : a.kind = .store ∨ ∀ p ∈ ps, regionOf p.pa ≠ .host) :
    chargeOf x e sh pl fps [ps] ≤ sh.base + 13506 + fps.length * 16000 := by
  have h1 := fetchCharge_le x e fps
  have h2 := memCharge_le e a.kind ps hn hh
  unfold chargeOf
  simp only [h, List.zip_cons_cons, List.zip_nil_left, List.map_cons, List.map_nil, List.sum_cons, List.sum_nil]
  split <;> split <;> omega

/-- An instruction of one access, where nothing diverts it and its body answers a device of which T holds: that device with its engine retired in
sequence. -/
theorem issue_access {s : State} {e : EngId} {sh : Shape} {plan : Regs → Engine → Plan}
    {body : Regs → List (List Phys) → State → Except Exc State} {a : Access} {ps : List Phys} (T : State → Prop)
    (hc : clear s e sh.len = true)
    (hp : (plan (s.engAt e).regs (s.engAt e)).emul = false ∧ (plan (s.engAt e).regs (s.engAt e)).illegal = false ∧
      (plan (s.engAt e).regs (s.engAt e)).divz = false)
    (hacc : (plan (s.engAt e).regs (s.engAt e)).acc = [a]) (hz : a.z ≤ 48)
    (htr : translate s e (accessVas a.va a.z) a.kind = .ok ps)
    (hh : a.kind = .store ∧ (plan (s.engAt e).regs (s.engAt e)).dst = none ∨ ∀ p ∈ ps, regionOf p.pa ≠ .host)
    (hl : sh.lacks = true → isReckoner e = true) (hm : sh.priv.rank ≤ (s.engAt e).psr.mode.rank)
    (hb : sh.base ≤ 1000) (hn : sh.len ≤ 3)
    (ht : ∀ y, (s.engAt e).Booked y → ∃ t, body (s.engAt e).regs [ps] (s.setEng e y) = .ok t ∧ T t)
    (hT : ∀ t, T t → (t.engAt e).haltAsked = false ∧ (t.engAt e).stepLeft = 0 ∧
      ((t.engAt e).repeating && (s.engAt e).pc == (t.engAt e).regs.bre) = false) :
    ∃ t x, T t ∧ issue sh plan (fun _ _ => .seq) body e s = t.setEng e x ∧ x.regs = (t.engAt e).regs ∧
      x.pc = (s.engAt e).pc + BitVec.ofNat 48 sh.len ∧ x.npc = none ∧
      x.rest = { t.engAt e with npc := none, slot := false }.rest := by
  have hlen : ps.length ≤ 48 := by
    have := translate_length _ _ _ _ _ htr
    rw [accessVas_length] at this
    omega
  obtain ⟨fps, chg, y, hy, hi⟩ := issue_runs (flow := fun _ _ => .seq) (body := body) (aps := [ps]) (clear_unhindered hc)
    (by simp [(clear_parts hc).2.1]) (instrExc_none hc hp hl hm) (by simp [hacc, translateAll, htr])
    (hh.imp (fun h => h.2) fun h => by simpa using h)
    (by
      intro fps hf
      have := chargeOf_one (s.engAt e) e sh (plan (s.engAt e).regs (s.engAt e)) fps a ps hacc hlen
        (hh.imp (fun h => h.1) id)
      omega)
  obtain ⟨t, hbody, hTt⟩ := ht y hy
  obtain ⟨h1, h2, h3⟩ := hT t hTt
  obtain ⟨x, r⟩ := settle_seq (fps := fps) (chg := chg) hc h1 h2 h3
  refine ⟨t, x, hTt, ?_, r.2⟩
  rw [hi, hbody]
  exact r.1

/-! ### Bookkeeping changes no translation and no load -/

section
variable {s : State} {e : EngId} {y : Engine} (h : (s.engAt e).Booked y)
include h

theorem translateWord_booked (va : Addr) (k : Kind) : translateWord (s.setEng e y) e va k = translateWord s e va k := by
  have hm : y.mmu k = (s.engAt e).mmu k := by cases k <;> simp [Engine.mmu, h.tlb, h.ftlb, h.fasid, h.asid]
  have hr : ∀ user c1 pa, regionCheck (s.setEng e y) y k user c1 pa = regionCheck s (s.engAt e) k user c1 pa := by
    intro user c1 pa
    simp only [regionCheck, h.hvalid]
    rfl
  simp only [translateWord, State.engAt_setEng_self, h.psr, hm, hr]

theorem translate_booked (vas : List Addr) (k : Kind) : translate (s.setEng e y) e vas k = translate s e vas k := by
  simp only [translate, translateWord_booked h]

theorem loadsNow_booked (va : Addr) (z : Nat) : loadsNow (s.setEng e y) e va z = loadsNow s e va z := by
  have hb : ∀ pa, isBad (s.setEng e y) pa = isBad s pa := fun _ => rfl
  have hw : ∀ p, wordThere (s.setEng e y) e p = wordThere s e p ∧ wordSeen (s.setEng e y) e p = wordSeen s e p := by
    intro p
    have h1 : (s.setEng e y).readMem p.pa = s.readMem p.pa := rfl
    have h2 : boardWindow (s.setEng e y) (p.pa - 0x5000000000) = boardWindow s (p.pa - 0x5000000000) := rfl
    simp only [wordThere, wordSeen, State.engAt_setEng_self, cacheWord, h.dcache, hb, h1, h2, and_self]
  have ha : ∀ ps, sbAnswer y ps = sbAnswer (s.engAt e) ps := fun ps => by simp only [sbAnswer, h.sb]
  simp only [loadsNow, translate_booked h, State.engAt_setEng_self, h.sb, ha, (hw _).1, (hw _).2]

end

/-- One word translated on its own. -/
theorem translate_one {s : State} {e : EngId} {va : Addr} {k : Kind} {p : Phys} (h : translate s e [va] k = .ok [p]) :
    translateWord s e va k = .ok p := by
  unfold translate at h
  cases hw : translateWord s e va k <;> simp [hw] at h
  rw [h]

/-- An atomic is permitted on memory alone (R188, R205). -/
theorem atomic_near {s : State} {e : EngId} {va : Addr} {p : Phys} (h : translate s e (accessVas va 1) .atomic = .ok [p]) :
    regionOf p.pa ≠ .host := by
  have h := translate_one (show translate s e [va] .atomic = .ok [p] by simpa [accessVas] using h)
  have key : ∀ x user dev c1 next pa own, (match regionCheck s x .atomic user c1 pa with
      | some r => XRes.access r
      | none => if x.psr.walk && dev then .walk
          else .ok { pa := pa, va := va, dev := dev, cached := c1 && !dev && decide (regionOf pa = Region.dram), nextOk := next, own := own }) = .ok p →
      regionOf p.pa ≠ .host := by
    intro x user dev c1 next pa own h hh
    have hn : regionOf pa = .host → regionCheck s x .atomic user c1 pa = some 1 := by
      intro hr; simp [regionCheck, hr]
    cases hr : regionCheck s x .atomic user c1 pa with
    | some r => simp [hr] at h
    | none =>
      simp only [hr] at h
      split at h
      · cases h
      · cases h
        rw [hn hh] at hr
        cases hr
  unfold translateWord at h
  dsimp only at h
  generalize 0xC10000000000 = n1, 0xC00000000000 = n2, 0x800000000000 = n3 at h
  split at h
  · cases h
  split at h
  · split at h
    · cases h
    · exact key _ _ _ _ _ _ _ h
  split at h
  · cases h
  cases ht : tlbLookup ((s.engAt e).mmu .atomic).1 ((s.engAt e).mmu .atomic).2 va with
  | none =>
    simp only [ht] at h
    split at h <;> cases h
  | some q =>
    simp only [ht] at h
    split at h
    · cases h
    · exact key _ _ _ _ _ _ _ h

/-! ### Loads -/

theorem Engine.count_zero (x : Engine) (ks : List Nat) (ev : Nat) : x.count ks ev 0 = x := by
  unfold Engine.count
  induction ks with
  | nil => rfl
  | cons k ks ih => simpa using ih

theorem sameBut.refl (e : EngId) (s : State) : sameBut e s s := ⟨rfl, fun _ _ => rfl⟩

theorem sameBut.trans {e : EngId} {s t u : State} (h : sameBut e s t) (k : sameBut e t u) : sameBut e s u :=
  ⟨k.1.trans h.1, fun g hg => (k.2 g hg).trans (h.2 g hg)⟩

theorem sameBut_setEng (e : EngId) (s : State) (x : Engine) : sameBut e s (s.setEng e x) :=
  ⟨rfl, fun _ hg => State.engAt_setEng_ne _ _ hg⟩

theorem sameBut_modEng (e : EngId) (s : State) (f : Engine → Engine) : sameBut e s (s.modEng e f) :=
  ⟨rfl, fun _ hg => State.engAt_modEng_ne _ _ hg⟩

theorem touchLine_hit {s : State} {e : EngId} {p : Phys} (h : ((s.engAt e).dcache.any fun d => d.line == lineOf p.pa) = true) :
    touchLine s e p = s := by simp [touchLine, h]

theorem readTarget_there {s : State} {e : EngId} {p : Phys} (h : wordThere s e p = true) :
    readTarget s e p = (wordSeen s e p, false, s) := by
  unfold wordThere at h
  unfold readTarget wordSeen
  split at h
  · rename_i hc
    simp only [Bool.and_eq_true, Bool.not_eq_true'] at h
    simp only [hc, if_true, touchLine_hit h.1, h.2]
  · rename_i hc
    simp only [hc, if_false, Bool.false_eq_true]
    simp only [Bool.or_eq_true, Bool.and_eq_true, decide_eq_true_eq, Bool.not_eq_true'] at h
    rcases h with h | ⟨h1, h2⟩
    · simp [h]
    · generalize regionOf p.pa = r at *
      cases r <;> simp_all [Region.isMemory]

theorem readTargets_there (s : State) (e : EngId) (ps : List Phys) (h : (ps.all fun p => wordThere s e p) = true) :
    readTargets s e ps = (ps.map fun p => wordSeen s e p, none, s) := by
  induction ps with
  | nil => rfl
  | cons p ps ih =>
    simp only [List.all_cons, Bool.and_eq_true] at h
    simp only [readTargets, readTarget_there h.1, ih h.2, List.map_cons, Bool.false_eq_true, if_false]

/-- An engine that has evicted nothing has lost no line. -/
theorem evictedLost_self (x : Engine) : evictedLost x x = none := by
  unfold evictedLost
  rw [Option.map_eq_none_iff, List.find?_eq_none]
  intro d hd h
  simp only [Bool.and_eq_true, Bool.not_eq_true', List.any_eq_false, decide_eq_true_eq, not_and, beq_iff_eq] at h
  refine h.2 d hd rfl ?_
  intro ho
  simp [DLine.lost, ho] at h

theorem loadWords_now {s : State} {e : EngId} {va : Addr} {z : Nat} {ws : List Word} (h : loadsNow s e va z = some ws) :
    ∃ ps t, translate s e (accessVas va z) .load = .ok ps ∧ (∀ p ∈ ps, regionOf p.pa ≠ .host) ∧
      loadWords s e ps = (.ok ws, t) ∧ t.engAt e = s.engAt e ∧ sameBut e s t := by
  unfold loadsNow at h
  split at h
  · cases h
  rename_i ps htr
  split at h
  · cases h
  rename_i hh
  simp only [Bool.or_eq_true, decide_eq_true_eq, not_or, List.any_eq_true, not_exists, not_and, ne_eq, Decidable.not_not] at hh
  obtain ⟨hhost, hdev⟩ := hh
  refine ⟨ps, ?_⟩
  unfold loadWords
  simp only [hdev, ite_self, drainN]
  cases hs : sbAnswer (s.engAt e) ps with
  | forward b =>
    simp only [hs, Option.some.injEq] at h
    subst h
    exact ⟨s, htr, hhost, rfl, rfl, .refl e s⟩
  | memory =>
    simp only [hs] at h
    split at h
    · rename_i ha
      cases h
      simp only [readTargets_there s e ps ha, evictedLost_self]
      exact ⟨s, htr, hhost, rfl, rfl, .refl e s⟩
    · cases h
  | drain n =>
    simp only [hs] at h
    split at h
    · rename_i ha
      obtain ⟨rfl, ha⟩ := ha
      cases h
      have key : ∀ t : State, t.engAt e = s.engAt e → { t with eng := [] } = { s with eng := [] } →
          readTargets t e ps = (ps.map fun p => wordSeen s e p, none, t) := by
        intro t h1 h2
        have hw : ∀ p, wordThere t e p = wordThere s e p ∧ wordSeen t e p = wordSeen s e p := by
          intro p
          have hb : isBad t p.pa = isBad s p.pa := by
            have := congrArg (fun u : State => isBad u p.pa) h2; exact this
          have hm : t.readMem p.pa = s.readMem p.pa := by
            have := congrArg (fun u : State => u.readMem p.pa) h2; exact this
          have hbw : boardWindow t (p.pa - 0x5000000000) = boardWindow s (p.pa - 0x5000000000) := by
            have := congrArg (fun u : State => boardWindow u (p.pa - 0x5000000000)) h2; exact this
          simp only [wordThere, wordSeen, h1, hb, hm, hbw, and_self]
        have ha' : (ps.all fun p => wordThere t e p) = true := by simpa only [(hw _).1] using ha
        rw [readTargets_there t e ps ha']
        simp only [(hw _).2]
      have e1 : (s.modEng e fun x => x.count (perfKeys e) 9 0).engAt e = s.engAt e := by
        rw [State.engAt_modEng_self, Engine.count_zero]
      refine ⟨s.modEng e fun x => x.count (perfKeys e) 9 0, htr, hhost, ?_, e1, sameBut_modEng ..⟩
      have hr := key _ e1 (sameBut_modEng e s _).1
      simp only [drainN, BEq.rfl, Bool.or_true, if_true, hr, e1, evictedLost_self]
    · cases h

section
variable {i : Instr} {s : State} {e : EngId} {n z : Nat} {words : List Word} {writes : List Res} {lacks : Bool}
  {ea : Regs → Engine → Ea}

/-- An instruction of the load shape, where it is permitted and waits for nothing. -/
theorem loadOp_next {dst : LoadDst} {ws : List Word} {r : Regs} {base : Nat} {priv : Mode} {ser : Bool}
    (hi : exec i s = .next (issue { words := words, base := base, writes := writes, lacks := lacks, priv := priv, serial := ser }
      (fun rd x => { emul := (ea rd x).bad, acc := [{ va := (ea rd x).va, z := z, kind := .load }], dst := some dst,
                     upd := (ea rd x).upd })
      (fun _ _ => .seq) (loadBody e dst fun rd => (ea rd (s.engAt e)).upd) e s)) (hw : words.length = n) (hn : n ≤ 3)
    (hz : z ≤ 48) (hl : lacks = true → isReckoner e = true) (hc : clear s e n = true) (hb : base ≤ 1000)
    (hm : priv.rank ≤ (s.engAt e).psr.mode.rank)
    (hbad : (ea (s.engAt e).regs (s.engAt e)).bad = false)
    (hld : loadsNow s e (ea (s.engAt e).regs (s.engAt e)).va z = some ws)
    (hf : ∀ t : State, (s.engAt e).Booked (t.engAt e) →
      finishLoad t e (s.engAt e).regs dst (ea (s.engAt e).regs (s.engAt e)).upd ws = .ok (t.modEng e fun x => { x with regs := r }))
    (hr : r.brc = (s.engAt e).regs.brc ∧ r.bre = (s.engAt e).regs.bre) : regsNext i s e n r := by
  subst hw
  obtain ⟨h1, h2, h3, h4, h5, h6, h7, h8, h9, h10, -⟩ := clear_parts hc
  obtain ⟨ps, -, l1, l2, -⟩ := loadWords_now hld
  obtain ⟨t, x, ⟨y, hy, hty, l5⟩, k1, k2, k3, k4, k5⟩ := issue_access (sh := { words := words, base := base, writes := writes, lacks := lacks, priv := priv, serial := ser })
    (plan := fun rd x => { emul := (ea rd x).bad, acc := [{ va := (ea rd x).va, z := z, kind := .load }], dst := some dst,
                           upd := (ea rd x).upd })
    (body := loadBody e dst fun rd => (ea rd (s.engAt e)).upd) (ps := ps)
    (fun t => ∃ y, (s.engAt e).Booked y ∧ t.engAt e = { y with regs := r } ∧ sameBut e s t) hc ⟨hbad, rfl, rfl⟩ rfl hz l1 (.inr l2) hl
    hm hb hn (by
      intro y hy
      obtain ⟨ps', t, m1, -, m3, m4, m5⟩ := loadWords_now (s := s.setEng e y) (e := e) (by rw [loadsNow_booked hy]; exact hld)
      rw [translate_booked hy, l1] at m1
      cases m1
      rw [State.engAt_setEng_self] at m4
      refine ⟨t.modEng e fun x => { x with regs := r }, ?_, y, hy, by rw [State.engAt_modEng_self, m4],
        ((sameBut_setEng ..).trans m5).trans (sameBut_modEng ..)⟩
      unfold loadBody
      simp only [List.flatten_cons, List.flatten_nil, List.append_nil, m3]
      exact hf t (m4 ▸ hy))
    (by
      rintro t ⟨y, hy, hty, -⟩
      simp only [hty, Engine.repeating, hr.1, hr.2, hy.haltAsked, hy.stepLeft, hy.psr]
      exact ⟨h7, h8, h9⟩)
  refine ⟨_, hi, ?_, ?_, ?_, ?_, ?_⟩
  · rw [k1, State.engAt_setEng_self, k2, hty]
  · rw [k1]; simpa [Shape.len] using k3
  · rw [k1]; simpa using k4
  · rw [k1, State.engAt_setEng_self, k5, hty]
    have := hy.1
    simp only [Engine.rest, Engine.mk.injEq] at this ⊢
    simp [this, h2, h3]
  · rw [k1]
    exact l5.trans (sameBut_setEng ..)

end

/-! ### Stores -/

theorem pushEntry_room {s : State} {e : EngId} {b : SbEntry} (h : (s.engAt e).sb.length < 8) :
    pushEntry s e b = s.modEng e fun x => { x with sb := x.sb ++ [b] } := by
  unfold pushEntry
  have : decide (8 ≤ (s.engAt e).sb.length) = false := by simp; omega
  simp [this]

theorem pushAll_room (s : State) (e : EngId) (es : List SbEntry) (x : Engine) (hx : s.engAt e = x) (h : x.sb.length + es.length ≤ 8) :
    ∃ t, es.foldl (fun s b => pushEntry s e b) s = t ∧ t.engAt e = { x with sb := x.sb ++ es } ∧ sameBut e s t := by
  induction es generalizing s x with
  | nil => exact ⟨s, rfl, by simp [hx], .refl e s⟩
  | cons a es ih =>
    simp only [List.length_cons] at h
    simp only [List.foldl_cons]
    rw [pushEntry_room (by rw [hx]; omega)]
    obtain ⟨t, h1, h2, h3⟩ := ih (s.modEng e fun y => { y with sb := y.sb ++ [a] }) _ (State.engAt_modEng_self ..) (by rw [hx]; simp; omega)
    refine ⟨t, h1, ?_, (sameBut_modEng ..).trans h3⟩
    rw [h2, hx]
    simp

section
variable {i : Instr} {s : State} {e : EngId} {n z : Nat} {words : List Word} {writes : List Res} {lacks : Bool}
  {ea : Regs → Engine → Ea} {val : Regs → List Word}

/-- A store whose lines are all in the data cache brings none. -/
theorem storeAccess_held {s : State} {e : EngId} {ps : List Phys} (h : linesHeld (s.engAt e) ps = true) (ws : List Word) :
    storeAccess s e ps ws = .ok (storeWords s e ps ws) := by
  have ht : touchStores s e ps = s := by
    have : ∀ q ∈ ps.filter Phys.cached, touchLine s e q = s := by
      intro q hq
      rw [List.mem_filter] at hq
      refine touchLine_hit ?_
      have := List.all_eq_true.mp h q hq.1
      simpa [hq.2] using this
    unfold touchStores
    generalize ps.filter Phys.cached = l at this ⊢
    induction l with
    | nil => rfl
    | cons q qs ih => rw [List.foldl_cons, this q (by simp)]; exact ih fun r hr => this r (by simp [hr])
  simp only [storeAccess, ht, evictedLost_self]

/-- An instruction of the store shape, where it is permitted and the buffer has room. -/
theorem storeOp_next {es : List SbEntry} {base : Nat} {priv : Mode} {ser : Bool} {fin : Regs → Engine → Option (Nat × Addr)}
    {vals : Regs → State → List Word}
    (hi : exec i s = .next (issue { words := words, base := base, writes := writes, lacks := lacks, priv := priv, serial := ser }
      (fun rd x => { emul := (ea rd x).bad, acc := [{ va := (ea rd x).va, z := z, kind := .store }] })
      (fun _ _ => .seq)
      (fun rd aps t => (storeAccess t e aps.flatten (vals rd t)).map fun t => t.modEng e fun x => { x with regs := x.regs.setUpd (fin rd (s.engAt e)) }) e s))
    (hw : words.length = n) (hn : n ≤ 3) (hz : z ≤ 48) (hl : lacks = true → isReckoner e = true) (hc : clear s e n = true)
    (hb : base ≤ 1000) (hm : priv.rank ≤ (s.engAt e).psr.mode.rank)
    (hbad : (ea (s.engAt e).regs (s.engAt e)).bad = false)
    (hst : storesNow s e (ea (s.engAt e).regs (s.engAt e)).va z (vals (s.engAt e).regs s) = some es)
    (hvals : ∀ y, (s.engAt e).Booked y → vals (s.engAt e).regs (s.setEng e y) = vals (s.engAt e).regs s) :
    engNext i s e n { s.engAt e with regs := (s.engAt e).regs.setUpd (fin (s.engAt e).regs (s.engAt e)), sb := (s.engAt e).sb ++ es } := by
  subst hw
  obtain ⟨h1, h2, h3, h4, h5, h6, h7, h8, h9, h10, -⟩ := clear_parts hc
  unfold storesNow at hst
  split at hst
  · cases hst
  rename_i ps htr
  dsimp only at hst
  split at hst
  rotate_left
  · cases hst
  rename_i hroom
  obtain ⟨hheld, hlen⟩ := hroom
  cases hst
  have hu : ∀ (r : Regs) u, (r.setUpd u).brc = r.brc ∧ (r.setUpd u).bre = r.bre := by
    intro r u
    unfold Regs.setUpd Regs.setA
    split <;> exact ⟨rfl, rfl⟩
  obtain ⟨t, x, ⟨y, hy, hty, p3⟩, k1, k2, k3, k4, k5⟩ := issue_access (sh := { words := words, base := base, writes := writes, lacks := lacks, priv := priv, serial := ser })
    (plan := fun rd x => { emul := (ea rd x).bad, acc := [{ va := (ea rd x).va, z := z, kind := .store }] })
    (body := fun rd aps t => (storeAccess t e aps.flatten (vals rd t)).map fun t => t.modEng e fun x => { x with regs := x.regs.setUpd (fin rd (s.engAt e)) })
    (ps := ps)
    (fun t => ∃ y, (s.engAt e).Booked y ∧ t.engAt e = { y with
        regs := (s.engAt e).regs.setUpd (fin (s.engAt e).regs (s.engAt e))
        sb := (s.engAt e).sb ++ storeEntries (s.engAt e).ctrl.hinst.toNat ps (vals (s.engAt e).regs s) } ∧ sameBut e s t)
    hc ⟨hbad, rfl, rfl⟩ rfl hz htr (.inl ⟨rfl, rfl⟩) hl hm hb hn (by
      intro y hy
      obtain ⟨t, p1, p2, p3⟩ := pushAll_room (s.setEng e y) e
        (storeEntries (s.engAt e).ctrl.hinst.toNat ps (vals (s.engAt e).regs s)) y (State.engAt_setEng_self ..) (by rw [hy.sb]; exact hlen)
      have hs : storeWords (s.setEng e y) e ps (vals (s.engAt e).regs (s.setEng e y)) = t := by
        simp only [storeWords, State.engAt_setEng_self, hy.hinst, hvals y hy]
        exact p1
      have hk : linesHeld ((s.setEng e y).engAt e) ps = true := by simpa only [State.engAt_setEng_self, linesHeld, hy.dcache] using hheld
      refine ⟨t.modEng e fun x => { x with regs := x.regs.setUpd (fin (s.engAt e).regs (s.engAt e)) }, ?_, y, hy, ?_, ?_⟩
      · simp only [List.flatten_cons, List.flatten_nil, List.append_nil, storeAccess_held hk, hs, Except.map]
      · simp only [State.engAt_modEng_self, p2, hy.2.1, hy.sb]
      · exact ((sameBut_setEng ..).trans p3).trans (sameBut_modEng ..))
    (by
      rintro t ⟨y, hy, hty, -⟩
      simp only [hty, Engine.repeating, (hu _ _).1, (hu _ _).2, hy.haltAsked, hy.stepLeft, hy.psr]
      exact ⟨h7, h8, h9⟩)
  refine ⟨_, hi, ?_, ?_, ?_, ?_, ?_⟩
  · rw [k1, State.engAt_setEng_self, k2, hty]
  · rw [k1]; simpa [Shape.len] using k3
  · rw [k1]; simpa using k4
  · rw [k1, State.engAt_setEng_self, k5, hty]
    have := hy.1
    simp only [Engine.rest, Engine.mk.injEq] at this ⊢
    simp [this, h2, h3]
  · rw [k1]
    exact p3.trans (sameBut_setEng ..)

end

end Sys2Proof.Machine
end

