-- ==== Sys2Proof/Laws/FrameRings.lean ====
section
/-! SUPPORT. Which operations leave memory as it is: registers, the journal, device time, the command rings. -/
namespace Sys2Proof.Machine

@[simp] theorem State.ite_mem (c : Prop) [Decidable c] (s t : State) : (if c then s else t).mem = if c then s.mem else t.mem := by
  split <;> rfl

theorem foldl_mem {α : Type} (f : State → α → State) (h : ∀ s x, (f s x).mem = s.mem) (l : List α) (s : State) :
    (l.foldl f s).mem = s.mem := by
  induction l generalizing s with
  | nil => rfl
  | cons x l ih => rw [List.foldl_cons, ih, h]

@[simp] theorem ite_fst {α β : Type} (c : Prop) [Decidable c] (a b : α × β) : (if c then a else b).1 = if c then a.1 else b.1 := by
  split <;> rfl
@[simp] theorem ite_snd {α β : Type} (c : Prop) [Decidable c] (a b : α × β) : (if c then a else b).2 = if c then a.2 else b.2 := by
  split <;> rfl


@[simp] theorem State.setRegs_mem (s : State) (off : Nat) (a2 : List Word) :
    (State.setRegs s off a2).mem = s.mem := by
  induction a2 generalizing s off with
  | nil => rfl
  | cons w ws ih => unfold State.setRegs; rw [ih]; rfl

@[simp] theorem State.mcUncorr_mem (s : State) (pa : Nat) :
    (State.mcUncorr s pa).mem = s.mem := by
  rfl

@[simp] theorem State.cbEvent_mem (s : State) (bit : Nat) (board : Nat) :
    (State.cbEvent s bit board).mem = s.mem := by
  simp [State.cbEvent]

@[simp] theorem State.applyPost_mem (s : State) (p : Post) :
    (State.applyPost s p).mem = s.mem := by
  simp [State.applyPost]

@[simp] theorem State.readTime_mem (s : State) :
    (State.readTime s).2.mem = s.mem := by
  rfl

@[simp] theorem State.setServo_mem (s : State) (v : Nat) :
    (State.setServo s v).mem = s.mem := by
  simp [State.setServo]

@[simp] theorem State.send_mem (s : State) (o : Out) :
    (State.send s o).mem = s.mem := by
  rfl

@[simp] theorem State.msix_mem (s : State) (v : Nat) :
    (State.msix s v).mem = s.mem := by
  simp [State.msix]

@[simp] theorem State.msixSend_mem (s : State) (v : Nat) :
    (State.msixSend s v).mem = s.mem := by
  simp [State.msixSend]

@[simp] theorem State.msixFlush_mem (s : State) :
    (State.msixFlush s).mem = s.mem := by
  simp [State.msixFlush, foldl_mem]

@[simp] theorem State.deviceEvent_mem (s : State) :
    (State.deviceEvent s).mem = s.mem := by
  simp [State.deviceEvent]

@[simp] theorem State.stewardLine_mem (s : State) (line : Nat) :
    (State.stewardLine s line).mem = s.mem := by
  simp [State.stewardLine]

@[simp] theorem State.putEntry_mem (s : State) (seq : Nat) (ws : List Word) :
    (State.putEntry s seq ws).mem = s.mem := by
  simp [State.putEntry]

@[simp] theorem State.journal_mem (s : State) (e : JEntry) :
    (State.journal s e).mem = s.mem := by
  simp [State.journal]

@[simp] theorem State.chainReset_mem (s : State) :
    (State.chainReset s).mem = s.mem := by
  simp [State.chainReset]

@[simp] theorem State.journalGroup_mem (s : State) (o : Origin) (st : Status) (detail : Nat) (a4 : Nat) (a5 : List (Word × Word)) :
    (State.journalGroup s o st detail a4 a5).mem = s.mem := by
  induction a5 generalizing s a4 with
  | nil => rfl
  | cons x l ih => simp [State.journalGroup, ih]

@[simp] theorem State.journalBit_mem (s : State) (o : Origin) (off : Nat) (bit : Nat) :
    (State.journalBit s o off bit).mem = s.mem := by
  simp [State.journalBit]

@[simp] theorem State.aer_mem (s : State) (bits : Long) :
    (State.aer s bits).mem = s.mem := by
  rfl

@[simp] theorem State.internalError_mem (s : State) (corrected : Bool) :
    (State.internalError s corrected).mem = s.mem := by
  simp [State.internalError]

@[simp] theorem State.putRecord_mem (s : State) (ws : List Word) :
    (State.putRecord s ws).mem = s.mem := by
  simp [State.putRecord]

@[simp] theorem State.record_mem (s : State) (r : ErrRec) :
    (State.record s r).mem = s.mem := by
  simp [State.record]

@[simp] theorem State.linkOut_mem (s : State) (f : Nat → Nat → Out) :
    (State.linkOut s f).mem = s.mem := by
  simp [State.linkOut]

@[simp] theorem State.linkSend_mem (s : State) (type : Nat) (mseq : Nat) (body : List Nat) :
    (State.linkSend s type mseq body).mem = s.mem := by
  simp [State.linkSend]

@[simp] theorem State.mirrorOut_mem (s : State) (frameOrCut : Bool) (f : Nat → Nat → Nat → Out) :
    (State.mirrorOut s frameOrCut f).mem = s.mem := by
  simp [State.mirrorOut]

@[simp] theorem State.mirror_mem (s : State) (type : Nat) (body : List Nat) :
    (State.mirror s type body).mem = s.mem := by
  simp [State.mirror]

@[simp] theorem State.startWake_mem (s : State) (alarm : Nat) :
    (State.startWake s alarm).mem = s.mem := by
  rfl

@[simp] theorem State.alarmAct_mem (s : State) (n : Nat) :
    (State.alarmAct s n).mem = s.mem := by
  simp [State.alarmAct]

@[simp] theorem State.alarmCommit_mem (s : State) (n : Nat) :
    (State.alarmCommit s n).mem = s.mem := by
  simp [State.alarmCommit]

@[simp] theorem State.timerEvent_mem (s : State) (src : Nat) (n : Nat) :
    (State.timerEvent s src n).mem = s.mem := by
  rfl

@[simp] theorem State.capture_mem (s : State) (f : Nat) (t : Nat) :
    (State.capture s f t).mem = s.mem := by
  simp [State.capture]

@[simp] theorem State.captureSrc_mem (s : State) (c : Nat) (which : List (Nat × Nat)) :
    (State.captureSrc s c which).mem = s.mem := by
  simp [State.captureSrc, foldl_mem]

@[simp] theorem State.fire_mem (s : State) (f : Nat) (t : Nat) :
    (State.fire s f t).mem = s.mem := by
  simp [State.fire]

@[simp] theorem State.timerAct_mem (s : State) (f : Nat) (t : Nat) :
    (State.timerAct s f t).mem = s.mem := by
  simp [State.timerAct]

@[simp] theorem State.timerCommit_mem (s : State) (f : Nat) (t : Nat) :
    (State.timerCommit s f t).mem = s.mem := by
  simp [State.timerCommit]

@[simp] theorem State.timerEdge_mem (s : State) (told : Nat) (tnew : Nat) (ev : Tbl Nat) (f : Nat) (t : Nat) :
    (State.timerEdge s told tnew ev f t).mem = s.mem := by
  simp [State.timerEdge]

@[simp] theorem State.globalStart_mem (s : State) (l : List (Nat × Nat)) :
    (State.globalStart s l).mem = s.mem := by
  exact foldl_mem _ (fun s x => by simp) _ _

@[simp] theorem State.heartbeat_mem (s : State) :
    (State.heartbeat s).mem = s.mem := by
  simp [State.heartbeat]

@[simp] theorem State.stepInstants_mem (s : State) (told : Nat) (tnew : Nat) :
    (State.stepInstants s told tnew).mem = s.mem := by
  rfl

@[simp] theorem State.advance_mem (s : State) (inc : Nat × Nat × Nat) :
    (State.advance s inc).mem = s.mem := by
  unfold State.advance; (try dsimp only); repeat' split
  all_goals simp [*, foldl_mem]

@[simp] theorem State.takeInc_mem (s : State) :
    (State.takeInc s).mem = s.mem := by
  unfold State.takeInc; repeat' split
  all_goals simp

@[simp] theorem State.nextEdge_mem (s : State) :
    (State.nextEdge s).mem = s.mem := by
  simp [State.nextEdge]

@[simp] theorem tcxoEdge_mem (pps : Bool) (s : State) :
    (tcxoEdge pps s).mem = s.mem := by
  simp [tcxoEdge]

@[simp] theorem incCommit_mem (s : State) (ws : List Word) :
    (incCommit s ws).mem = s.mem := by
  simp [incCommit]

@[simp] theorem State.slew_mem (s : State) :
    (State.slew s).mem = s.mem := by
  simp [State.slew]

@[simp] theorem setCommit_mem (s : State) (o : Origin) (ws : List Word) :
    (setCommit s o ws).mem = s.mem := by
  simp [setCommit]

@[simp] theorem gstartCommit_mem (s : State) (ws : List Word) :
    (gstartCommit s ws).mem = s.mem := by
  simp [gstartCommit]

@[simp] theorem ppsCapture_mem (lowNs : Nat) (s : State) :
    (ppsCapture lowNs s).mem = s.mem := by
  simp [ppsCapture]

@[simp] theorem ppsRise_mem (s : State) :
    (ppsRise s).mem = s.mem := by
  simp [ppsRise]

@[simp] theorem ppsFall_mem (s : State) :
    (ppsFall s).mem = s.mem := by
  simp [ppsFall]

@[simp] theorem State.anaTrip_mem (s : State) (n : Nat) :
    (State.anaTrip s n).mem = s.mem := by
  simp [State.anaTrip]

@[simp] theorem analogueLeft_mem (n : Nat) (v : Int) (s : State) :
    (analogueLeft n v s).mem = s.mem := by
  simp [analogueLeft]

@[simp] theorem State.startHandover_mem (s : State) :
    (State.startHandover s).mem = s.mem := by
  simp [State.startHandover]

@[simp] theorem State.rescaled_mem (s : State) (dOld : Nat) (dNew : Nat) :
    (State.rescaled s dOld dNew).mem = s.mem := by
  simp [State.rescaled]

@[simp] theorem tcxoLost_mem (n : Nat) (pps : Bool) (s : State) :
    (tcxoLost n pps s).mem = s.mem := by
  simp [tcxoLost, foldl_mem]

@[simp] theorem tcxoResume_mem (s : State) :
    (tcxoResume s).mem = s.mem := by
  simp [tcxoResume]

@[simp] theorem State.setInst_mem (s : State) (n : Nat) (i : Inst) :
    (State.setInst s n i).mem = s.mem := by
  rfl

@[simp] theorem State.modInst_mem (s : State) (n : Nat) (f : Inst → Inst) :
    (State.modInst s n f).mem = s.mem := by
  rfl

@[simp] theorem State.atsKeep_mem (s : State) (n : Nat) (p : Nat) :
    (State.atsKeep s n p).mem = s.mem := by
  rfl

@[simp] theorem State.atsUse_mem (s : State) (n : Nat) (pages : List Nat) :
    (State.atsUse s n pages).mem = s.mem := by
  simp [State.atsUse, foldl_mem]

@[simp] theorem State.hostAsk_mem (s : State) (n : Nat) (pages : List Nat) :
    (State.hostAsk s n pages).mem = s.mem := by
  simp [State.hostAsk, foldl_mem]

@[simp] theorem State.askRefused_mem (s : State) (n : Nat) (pages : List Nat) (o : Out) :
    (State.askRefused s n pages o).mem = s.mem := by
  simp [State.askRefused]

@[simp] theorem State.logPage_mem (s : State) (n : Nat) (k : Nat) :
    (State.logPage s n k).mem = s.mem := by
  unfold State.logPage; repeat' split
  all_goals simp

@[simp] theorem State.logWrite_mem (s : State) (n : Nat) (addr : Nat) (bytes : Nat) :
    (State.logWrite s n addr bytes).mem = s.mem := by
  unfold State.logWrite; (try dsimp only); repeat' split
  all_goals simp [*, foldl_mem]

@[simp] theorem State.hostWrite_mem (s : State) (n : Nat) (addr : Nat) (ws : List Word) :
    (State.hostWrite s n addr ws).mem = s.mem := by
  simp [State.hostWrite]

@[simp] theorem State.hostOctets_mem (s : State) (n : Nat) (addr : Nat) (octets : List Byte) :
    (State.hostOctets s n addr octets).mem = s.mem := by
  simp [State.hostOctets]

@[simp] theorem State.hostRead_mem (s : State) (n : Nat) (addr : Nat) (bytes : Nat) :
    (State.hostRead s n addr bytes).mem = s.mem := by
  simp [State.hostRead]

@[simp] theorem State.ringInterrupt_mem (s : State) (n : Nat) :
    (State.ringInterrupt s n).mem = s.mem := by
  simp [State.ringInterrupt]

@[simp] theorem State.writeCpl_mem (s : State) (n : Nat) (mk : Bool → List Word) (counter : Nat) :
    (State.writeCpl s n mk counter).mem = s.mem := by
  simp [State.writeCpl]

@[simp] theorem State.tellCpl_mem (s : State) (n : Nat) (c : Cpl) :
    (State.tellCpl s n c).mem = s.mem := by
  simp [State.tellCpl]

@[simp] theorem State.putCpl_mem (s : State) (n : Nat) (c : Cpl) :
    (State.putCpl s n c).mem = s.mem := by
  simp [State.putCpl]

@[simp] theorem State.putNotice_mem (s : State) (n : Nat) (c : Notice) :
    (State.putNotice s n c).mem = s.mem := by
  simp [State.putNotice]

@[simp] theorem State.flushNotices_mem (s : State) (n : Nat) (a2 : Nat) :
    (State.flushNotices s n a2).mem = s.mem := by
  induction a2 generalizing s with
  | zero => rfl
  | succ k ih => unfold State.flushNotices; (repeat' split) <;> simp [ih]

@[simp] theorem State.putHeld_mem (s : State) (n : Nat) :
    (State.putHeld s n).mem = s.mem := by
  unfold State.putHeld; repeat' split
  all_goals simp

@[simp] theorem State.putOrHold_mem (s : State) (n : Nat) (c : Cpl) :
    (State.putOrHold s n c).mem = s.mem := by
  simp [State.putOrHold]

@[simp] theorem State.behindNext_mem (s : State) (n : Nat) (a2 : Nat) :
    (State.behindNext s n a2).mem = s.mem := by
  induction a2 generalizing s with
  | zero => rfl
  | succ k ih => unfold State.behindNext; (repeat' split) <;> simp [ih]

@[simp] theorem State.flushCpl_mem (s : State) (n : Nat) :
    (State.flushCpl s n).mem = s.mem := by
  unfold State.flushCpl; repeat' split
  all_goals simp

@[simp] theorem State.complete_mem (s : State) (n : Nat) (c : Cpl) :
    (State.complete s n c).mem = s.mem := by
  simp [State.complete]

@[simp] theorem State.notice_mem (s : State) (n : Nat) (code : Nat) (result : Nat) :
    (State.notice s n code result).mem = s.mem := by
  unfold State.notice; (try dsimp only); repeat' split
  all_goals simp [*]

@[simp] theorem State.unsupported_mem (s : State) :
    (State.unsupported s).mem = s.mem := by
  rfl

@[simp] theorem State.aerCause_mem (s : State) (cause : Nat) :
    (State.aerCause s cause).mem = s.mem := by
  simp [State.aerCause]

@[simp] theorem State.instanceError_mem (s : State) (n : Nat) (cause : Nat) :
    (State.instanceError s n cause).mem = s.mem := by
  simp [State.instanceError]

@[simp] theorem State.hostStore_mem (s : State) (n : Nat) (addr : Nat) (ws : List Word) :
    (State.hostStore s n addr ws).mem = s.mem := by
  simp [State.hostStore]

@[simp] theorem State.puntFull_mem (s : State) (n : Nat) :
    (State.puntFull s n).mem = s.mem := by
  simp [State.puntFull]

@[simp] theorem State.punt_mem (s : State) (n : Nat) (p : Punt) :
    (State.punt s n p).mem = s.mem := by
  simp [State.punt]

@[simp] theorem State.doorbell_mem (s : State) (n : Nat) (cfg : Nat) (mine : Nat) (other : Nat) (lead : Bool) (w : Word) :
    (State.doorbell s n cfg mine other lead w).1.mem = s.mem := by
  simp [State.doorbell]

@[simp] theorem cmdDoorbell_mem (n : Nat) (w : Word) (s : State) :
    (cmdDoorbell n w s).mem = s.mem := by
  simp [cmdDoorbell]

@[simp] theorem cplDoorbell_mem (n : Nat) (w : Word) (s : State) :
    (cplDoorbell n w s).mem = s.mem := by
  simp [cplDoorbell]

@[simp] theorem puntDoorbell_mem (n : Nat) (w : Word) (s : State) :
    (puntDoorbell n w s).mem = s.mem := by
  simp [puntDoorbell]

@[simp] theorem ringCfg_mem (n : Nat) (cfg : Nat) (w : Word) (s : State) :
    (ringCfg n cfg w s).mem = s.mem := by
  simp [ringCfg]

@[simp] theorem armWrite_mem (n : Nat) (w : Word) (s : State) :
    (armWrite n w s).mem = s.mem := by
  simp [armWrite]

@[simp] theorem State.ringsOff_mem (s : State) (n : Nat) :
    (State.ringsOff s n).mem = s.mem := by
  rfl

@[simp] theorem State.rewriteCpls_mem (s : State) : s.rewriteCpls.mem = s.mem := by
  unfold State.rewriteCpls
  split
  · rfl
  · refine foldl_mem _ (fun s x => ?_) _ _
    split <;> simp

@[simp] theorem State.portalReset_mem (s : State) (n : Nat) :
    (State.portalReset s n).mem = s.mem := by
  unfold State.portalReset
  generalize List.range 25 = l
  exact foldl_mem (fun s o => s.setReg (portal n o) 0#16) (fun _ _ => rfl) l s

@[simp] theorem portalWrite_mem (n : Nat) (o : Nat) (w : Word) (s : State) :
    (portalWrite n o w s).mem = s.mem := by
  simp [portalWrite]

@[simp] theorem baseCommit_mem (n : Nat) (o : Nat) (ws : List Word) (s : State) :
    (baseCommit n o ws s).mem = s.mem := by
  simp [baseCommit]

end Sys2Proof.Machine
end

