-- ==== Sys2Proof/Laws/FrameUnits.lean ====
section
/-! SUPPORT. Which operations leave memory as it is: ledgers and counters, the Innkeeper's tables, courier registers, the register map. -/
namespace Sys2Proof.Machine

@[simp] theorem State.bill_mem (s : State) (n : Nat) (idx : Nat) (amount : Nat) (t : Nat) :
    (State.bill s n idx amount t).mem = s.mem := by
  simp [State.bill]

@[simp] theorem State.billReason_mem (s : State) (n : Nat) (reason : Nat) (t : Nat) :
    (State.billReason s n reason t).mem = s.mem := by
  simp [State.billReason]

@[simp] theorem State.recordsDropped_mem (s : State) (n : Nat) :
    (State.recordsDropped s n).mem = s.mem := by
  simp [State.recordsDropped]

@[simp] theorem State.holdRecords_mem (s : State) (n : Nat) :
    (State.holdRecords s n).mem = s.mem := by
  simp [State.holdRecords]

@[simp] theorem State.holdOrphans_mem (s : State) :
    (State.holdOrphans s).mem = s.mem := by
  simp [State.holdOrphans]

@[simp] theorem State.holdAll_mem (s : State) :
    (State.holdAll s).mem = s.mem := by
  simp [State.holdAll, foldl_mem]

@[simp] theorem State.queueRecord_mem (s : State) (n : Nat) (r : List Word) :
    (State.queueRecord s n r).mem = s.mem := by
  simp [State.queueRecord]

@[simp] theorem State.adoptLedger_mem (s : State) (n : Nat) :
    (State.adoptLedger s n).mem = s.mem := by
  unfold State.adoptLedger; repeat' split
  all_goals simp

@[simp] theorem State.ledgerLost_mem (s : State) (n : Nat) :
    (State.ledgerLost s n).mem = s.mem := by
  simp [State.ledgerLost]

@[simp] theorem State.settleLedger_mem (s : State) (n : Nat) :
    (State.settleLedger s n).mem = s.mem := by
  unfold State.settleLedger; repeat' split
  all_goals simp

@[simp] theorem State.formRecord_mem (s : State) (n : Nat) (kind : Nat) (minute : Nat) :
    (State.formRecord s n kind minute).mem = s.mem := by
  simp [State.formRecord]

@[simp] theorem minuteClose_mem (s : State) :
    (minuteClose s).mem = s.mem := by
  simp [minuteClose, foldl_mem]

@[simp] theorem State.lrWrite_mem (s : State) (r : List Word) (gap : Bool) :
    (State.lrWrite s r gap).mem = s.mem := by
  simp [State.lrWrite]

@[simp] theorem ledgerRecordWrite_mem (s : State) :
    (ledgerRecordWrite s).mem = s.mem := by
  unfold ledgerRecordWrite; (try dsimp only); repeat' split
  all_goals simp [*]

@[simp] theorem lrHeadWrite_mem (w : Word) (s : State) :
    (lrHeadWrite w s).mem = s.mem := by
  simp [lrHeadWrite]

@[simp] theorem State.setCtr_mem (s : State) (i : Nat) (c : PerfCtr) :
    (State.setCtr s i c).mem = s.mem := by
  unfold State.setCtr; repeat' split
  all_goals simp

@[simp] theorem State.traffic_mem (s : State) (i : Nat) :
    (State.traffic s i).mem = s.mem := by
  simp [State.traffic]

@[simp] theorem counterCommit_mem (i : Nat) (ws : List Word) (s : State) :
    (counterCommit i ws s).mem = s.mem := by
  simp [counterCommit]

@[simp] theorem ctrCtrlWrite_mem (i : Nat) (w : Word) (s : State) :
    (ctrCtrlWrite i w s).mem = s.mem := by
  simp [ctrCtrlWrite]

@[simp] theorem ctrEvselWrite_mem (i : Nat) (w : Word) (s : State) :
    (ctrEvselWrite i w s).mem = s.mem := by
  simp [ctrEvselWrite]

@[simp] theorem tdSample_mem (r : Nat) (s : State) :
    (tdSample r s).mem = s.mem := by
  simp [tdSample]

@[simp] theorem State.latchGroups_mem (s : State) (t : Nat) (sel : Nat → Bool) :
    (State.latchGroups s t sel).mem = s.mem := by
  simp [State.latchGroups]

@[simp] theorem State.allTraffic_mem (s : State) :
    (State.allTraffic s).mem = s.mem := by
  simp [State.allTraffic, foldl_mem]

@[simp] theorem snapGo_mem (s : State) :
    (snapGo s).mem = s.mem := by
  simp [snapGo]

@[simp] theorem State.latchLate_mem (s : State) :
    (State.latchLate s).mem = s.mem := by
  simp [State.latchLate]

@[simp] theorem State.snapWrite_mem (s : State) :
    (State.snapWrite s).mem = s.mem := by
  unfold State.snapWrite; repeat' split
  all_goals simp

@[simp] theorem snapshotComplete_mem (s : State) :
    (snapshotComplete s).mem = s.mem := by
  unfold snapshotComplete; (try dsimp only); repeat' split
  all_goals simp [*]

@[simp] theorem State.setStream_mem (s : State) (i : Nat) (x : Stream) :
    (State.setStream s i x).mem = s.mem := by
  rfl

@[simp] theorem State.setCoach_mem (s : State) (c : Nat) (k : Coach) :
    (State.setCoach s c k).mem = s.mem := by
  rfl

@[simp] theorem State.modCoach_mem (s : State) (c : Nat) (f : Coach → Coach) :
    (State.modCoach s c f).mem = s.mem := by
  rfl

@[simp] theorem State.setFrame_mem (s : State) (f : Nat) (x : FrameSt) :
    (State.setFrame s f x).mem = s.mem := by
  rfl

@[simp] theorem State.modFrame_mem (s : State) (f : Nat) (g : FrameSt → FrameSt) :
    (State.modFrame s f g).mem = s.mem := by
  rfl

@[simp] theorem State.ikRefused_mem (s : State) (n : Nat) (detail : Nat) :
    (State.ikRefused s n detail).mem = s.mem := by
  rfl

@[simp] theorem State.drainAs_mem (s : State) (f : Nat) (o : Origin) (w : Word × Word) :
    (State.drainAs s f o w).mem = s.mem := by
  simp [State.drainAs]

@[simp] theorem State.drain_mem (s : State) (f : Nat) (o : Origin) :
    (State.drain s f o).mem = s.mem := by
  simp [State.drain]

@[simp] theorem State.drainRecal_mem (s : State) (f : Nat) :
    (State.drainRecal s f).mem = s.mem := by
  simp [State.drainRecal]

@[simp] theorem State.recalNext_mem (s : State) :
    (State.recalNext s).mem = s.mem := by
  unfold State.recalNext; repeat' split
  all_goals simp

@[simp] theorem State.unguard_mem (s : State) (f : Nat) :
    (State.unguard s f).mem = s.mem := by
  simp [State.unguard, foldl_mem]

@[simp] theorem State.drainOut_mem (s : State) (f : Nat) :
    (State.drainOut s f).mem = s.mem := by
  simp [State.drainOut]

@[simp] theorem State.corrected_mem (s : State) (f : Nat) :
    (State.corrected s f).mem = s.mem := by
  simp [State.corrected]

@[simp] theorem State.fallback_mem (s : State) (c : Nat) (g : Nat) :
    (State.fallback s c g).mem = s.mem := by
  simp [State.fallback]

@[simp] theorem State.padEntry_mem (s : State) (src : Nat) (k : Coach) (g : Nat) (w : Word) (from_ : Nat) :
    (State.padEntry s src k g w from_).mem = s.mem := by
  simp [State.padEntry, foldl_mem]

@[simp] theorem State.padPeriod_mem (s : State) (c : Nat) (g : Nat) :
    (State.padPeriod s c g).mem = s.mem := by
  simp [State.padPeriod, foldl_mem]

@[simp] theorem State.decide__mem (s : State) (d : Decision) :
    (State.decide_ s d).mem = s.mem := by
  simp [State.decide_]

@[simp] theorem State.setCur_mem (s : State) (f : Nat) (c : Nat) (a : Nat) :
    (State.setCur s f c a).mem = s.mem := by
  rfl

@[simp] theorem State.curLine_mem (s : State) (f : Nat) (c : Nat) :
    (State.curLine s f c).mem = s.mem := by
  rfl

@[simp] theorem State.curStop_mem (s : State) (f : Nat) (c : Nat) (code : Nat) (at_ : Nat) (of_ : Nat × Nat) :
    (State.curStop s f c code at_ of_).mem = s.mem := by
  simp [State.curStop]

@[simp] theorem State.turned_mem (s : State) (r : Nat) :
    (State.turned s r).mem = s.mem := by
  rfl

@[simp] theorem State.chainDone_mem (s : State) (r : Nat) (n : Nat) (words : Nat) :
    (State.chainDone s r n words).mem = s.mem := by
  simp [State.chainDone]

@[simp] theorem State.chainStopped_mem (s : State) (r : Nat) (at_ : Nat) (of_ : Nat × Nat) :
    (State.chainStopped s r at_ of_).mem = s.mem := by
  simp [State.chainStopped]

@[simp] theorem courierGo_mem (f : Nat) (c : Nat) (s : State) :
    (courierGo f c s).mem = s.mem := by
  simp [courierGo]

@[simp] theorem State.fence_mem (s : State) :
    (State.fence s).mem = s.mem := by
  simp [State.fence]

@[simp] theorem kick_mem (p : Nat) (s : State) :
    (kick p s).mem = s.mem := by
  simp [kick]

@[simp] theorem fenceTimeout_mem (s : State) :
    (fenceTimeout s).mem = s.mem := by
  simp [fenceTimeout]

@[simp] theorem stewardTest_mem (silent : Word) (s : State) :
    (stewardTest silent s).mem = s.mem := by
  rfl

@[simp] theorem State.tested_mem (s : State) (hit : Word) (digest : Bool) :
    (State.tested s hit digest).mem = s.mem := by
  simp [State.tested]

@[simp] theorem selfTestPoints_mem (silent : Word) (s : State) :
    (selfTestPoints silent s).mem = s.mem := by
  simp [selfTestPoints]

@[simp] theorem selfTestDigest_mem (digest : Bool) (s : State) :
    (selfTestDigest digest s).mem = s.mem := by
  simp [selfTestDigest]

@[simp] theorem selfTest_mem (silent : Word) (digest : Bool) (s : State) :
    (selfTest silent digest s).mem = s.mem := by
  simp [selfTest]

@[simp] theorem selfTestWrite_mem (s : State) :
    (selfTestWrite s).mem = s.mem := by
  simp [selfTestWrite]

@[simp] theorem State.pairCheckstop_mem (s : State) (p : Nat) :
    (State.pairCheckstop s p).mem = s.mem := by
  simp [State.pairCheckstop]

@[simp] theorem State.breakChecking_mem (s : State) :
    (State.breakChecking s).mem = s.mem := by
  simp [State.breakChecking]

@[simp] theorem State.latch_mem (s : State) (ag : Agent) (off : Nat) (w : Word) :
    (State.latch s ag off w).mem = s.mem := by
  rfl

@[simp] theorem State.latchAll_mem (s : State) (ag : Agent) (off : Nat) (a3 : List Word) :
    (State.latchAll s ag off a3).mem = s.mem := by
  induction a3 generalizing s off with
  | nil => rfl
  | cons w ws ih => exact ih _ _

@[simp] theorem State.clearShadows_mem (s : State) (keep : Nat → Bool) :
    (State.clearShadows s keep).mem = s.mem := by
  rfl

@[simp] theorem State.captureRead_mem (s : State) (off : Nat) :
    (State.captureRead s off).mem = s.mem := by
  unfold State.captureRead; repeat' split
  all_goals simp

@[simp] theorem csrRead_mem (ag : Agent) (off : Nat) (s : State) :
    (csrRead ag off s).2.mem = s.mem := by
  unfold csrRead
  generalize wordPeek s = q
  dsimp only
  repeat' split
  all_goals first | rfl | simp

@[simp] theorem State.journalWrite_mem (s : State) (ag : Agent) (j : Bool) (off : Nat) (old : Word) (new : Word) (st : Status) (d : Nat) :
    (State.journalWrite s ag j off old new st d).mem = s.mem := by
  simp [State.journalWrite]

@[simp] theorem plainWrite_mem (ag : Agent) (off : Nat) (i : RegInfo) (w : Word) (s : State) :
    (plainWrite ag off i w s).mem = s.mem := by
  simp [plainWrite]

@[simp] theorem timerCtrl_mem (f : Nat) (t : Nat) (w : Word) (s : State) :
    (timerCtrl f t w s).mem = s.mem := by
  simp [timerCtrl]

@[simp] theorem capNow_mem (f : Nat) (t : Nat) (w : Word) (s : State) :
    (capNow f t w s).mem = s.mem := by
  simp [capNow]

@[simp] theorem State.selfTestEntry_mem (s : State) (ag : Agent) (w : Word) :
    (State.selfTestEntry s ag w).mem = s.mem := by
  simp [State.selfTestEntry]

@[simp] theorem twCtrlWrite_mem (ag : Agent) (w : Word) (s : State) :
    (twCtrlWrite ag w s).mem = s.mem := by
  unfold twCtrlWrite; repeat' split
  all_goals simp

@[simp] theorem msixWrite_mem (off : Nat) (w : Word) (s : State) :
    (msixWrite off w s).mem = s.mem := by
  simp [msixWrite]

@[simp] theorem timerGroup_mem (f : Nat) (o : Nat) (base : Nat) (ws : List Word) (s : State) :
    (timerGroup f o base ws s).mem = s.mem := by
  simp [timerGroup]

@[simp] theorem commitGroup_mem (ag : Agent) (base : Nat) (ws : List Word) (s : State) :
    (commitGroup ag base ws s).mem = s.mem := by
  unfold commitGroup; repeat' split
  all_goals simp

@[simp] theorem groupWrite_mem (ag : Agent) (base : Nat) (n : Nat) (off : Nat) (w : Word) (s : State) :
    (groupWrite ag base n off w s).mem = s.mem := by
  simp [groupWrite]

@[simp] theorem State.debugEntry_mem (t : State) (s : State) (off : Nat) :
    (State.debugEntry t s off).mem = t.mem := by
  unfold State.debugEntry; (try dsimp only); repeat' split
  all_goals simp [*, foldl_mem]

@[simp] theorem csrReads_mem (ag : Agent) (off : Nat) (a2 : Nat) (a3 : State) :
    (csrReads ag off a2 a3).2.mem = a3.mem := by
  induction a2 generalizing off a3 with
  | zero => rfl
  | succ n ih => simp only [csrReads]; rw [ih, csrRead_mem]

@[simp] theorem barRead_mem (ag : Agent) (byte : Nat) (n : Nat) (s : State) :
    (barRead ag byte n s).mem = s.mem := by
  simp [barRead]

end Sys2Proof.Machine
end

