-- ==== Sys2Proof/Laws/KeepUnits.lean ====
section
/-! SUPPORT. Operations that keep the memory's canonical form: stores, courier transfers, register writes. -/
namespace Sys2Proof.Machine

@[simp] theorem Memory.wf_ite (c : Prop) [Decidable c] (m n : List Host.Cell) :
    Memory.wf (if c then m else n) = if c then Memory.wf m else Memory.wf n := by
  split <;> rfl

theorem foldl_keeps {α : Type} (f : State → α → State) (hf : ∀ s x, Memory.wf s.mem = true → Memory.wf (f s x).mem = true)
    (l : List α) (s : State) (h : Memory.wf s.mem = true) : Memory.wf (l.foldl f s).mem = true := by
  induction l generalizing s with
  | nil => exact h
  | cons x l ih => exact ih _ (hf _ _ h)



@[simp] theorem State.zeroGroups_keeps (s : State) (c : Nat) (h : Memory.wf s.mem = true) :
    Memory.wf (State.zeroGroups s c).mem = true := by
  simp +contextual [State.zeroGroups, h, foldl_keeps]

@[simp] theorem State.groupFound_keeps (s : State) (pa : Nat) (h : Memory.wf s.mem = true) :
    Memory.wf (State.groupFound s pa).mem = true := by
  unfold State.groupFound; (try dsimp only); repeat' split
  all_goals simp [*]

@[simp] theorem State.groupsFound_keeps (s : State) (l : List Nat) (h : Memory.wf s.mem = true) :
    Memory.wf (State.groupsFound s l).mem = true := by
  simp +contextual [State.groupsFound, h, foldl_keeps]

theorem State.curRow_keeps (s t : State) (d : CurDesc) (i : Nat) (h : Memory.wf s.mem = true) (ht : s.curRow d i = .ok t) :
    Memory.wf t.mem = true := by
  unfold State.curRow at ht
  dsimp only at ht
  repeat' split at ht
  all_goals cases ht
  all_goals try rw [foldl_mem (h := by intro s k; rfl)]
  all_goals first
    | exact writeMem_wf _ _ _ h
    | exact foldl_keeps _ (fun _ _ hs => writeMem_wf _ _ _ hs) _ _ h


@[simp] theorem State.rowUncorr_keeps (s : State) (d : CurDesc) (i : Nat) (h : Memory.wf s.mem = true) :
    Memory.wf (State.rowUncorr s d i).mem = true := by
  simp [State.rowUncorr, h]

@[simp] theorem State.curRows_keeps (s : State) (d : CurDesc) (i n : Nat) (h : Memory.wf s.mem = true) :
    Memory.wf (s.curRows d i n).1.mem = true := by
  induction n generalizing s i with
  | zero => exact h
  | succ n ih =>
    unfold State.curRows
    split
    · dsimp only
      split
      · simp [h]
      · exact h
    · rename_i t ht
      exact ih _ _ (s.curRow_keeps t d i h ht)


@[simp] theorem State.curTry_keeps (s : State) (f : Nat) (c : Nat) (h : Memory.wf s.mem = true) :
    Memory.wf (State.curTry s f c).1.mem = true := by
  simp [State.curTry, h]

@[simp] theorem descriptorComplete_keeps (f : Fin 24) (c : Fin 16) (s : State) (h : Memory.wf s.mem = true) :
    Memory.wf (descriptorComplete f c s).mem = true := by
  unfold descriptorComplete; (try dsimp only); repeat' split
  all_goals simp (maxDischargeDepth := 12) [*]

@[simp] theorem chainError_keeps (f : Fin 24) (c : Fin 16) (s : State) (h : Memory.wf s.mem = true) :
    Memory.wf (chainError f c s).mem = true := by
  unfold chainError; (try dsimp only); repeat' split
  all_goals simp (maxDischargeDepth := 12) [*]

@[simp] theorem courierAbort_keeps (f : Nat) (c : Nat) (s : State) (h : Memory.wf s.mem = true) :
    Memory.wf (courierAbort f c s).mem = true := by
  simp [courierAbort, h]

@[simp] theorem courierCtrl_keeps (f : Nat) (c : Nat) (w : Word) (s : State) (h : Memory.wf s.mem = true) :
    Memory.wf (courierCtrl f c w s).mem = true := by
  simp [courierCtrl, h]

@[simp] theorem frameWrite_keeps (f : Nat) (o : Nat) (w : Word) (s : State) (h : Memory.wf s.mem = true) :
    Memory.wf (frameWrite f o w s).mem = true := by
  simp [frameWrite, h]

@[simp] theorem writeOne_keeps (ag : Agent) (off : Nat) (w : Word) (s : State) (h : Memory.wf s.mem = true) :
    Memory.wf (writeOne ag off w s).mem = true := by
  unfold writeOne; (try dsimp only); repeat' split
  all_goals simp (maxDischargeDepth := 12) [*]

@[simp] theorem csrWrite_keeps (ag : Agent) (off : Nat) (w : Word) (s : State) (h : Memory.wf s.mem = true) :
    Memory.wf (csrWrite ag off w s).mem = true := by
  simp [csrWrite, h]

@[simp] theorem barWrite_keeps (ag : Agent) (byte : Nat) (octets : List Byte) (s : State) (h : Memory.wf s.mem = true) :
    Memory.wf (barWrite ag byte octets s).mem = true := by
  simp +contextual [barWrite, h, foldl_keeps]

end Sys2Proof.Machine
end

