-- ==== Sys2Proof/Laws/KeepAccess.lean ====
section
/-! SUPPORT. Accesses, drains, a job's end, checkstops and deliveries keep the memory's canonical form; the engines' other events leave memory as it is. -/
namespace Sys2Proof.Machine

@[simp] theorem writeLine_keeps (s : State) (d : DLine) (h : Memory.wf s.mem = true) :
    Memory.wf (writeLine s d).mem = true := by
  simp +contextual [writeLine, h, foldl_keeps]

@[simp] theorem evictLine_keeps (s : State) (e : EngId) (d : DLine) (h : Memory.wf s.mem = true) :
    Memory.wf (evictLine s e d).mem = true := by
  simp [evictLine, h]

@[simp] theorem allocLine_keeps (s : State) (e : EngId) (line : Nat) (h : Memory.wf s.mem = true) :
    Memory.wf (allocLine s e line).mem = true := by
  unfold allocLine; repeat' split
  all_goals simp [h]

@[simp] theorem prefetchLine_keeps (s : State) (e : EngId) (line : Nat) (h : Memory.wf s.mem = true) :
    Memory.wf (prefetchLine s e line).mem = true := by
  simp [prefetchLine, h]

@[simp] theorem touchLine_keeps (s : State) (e : EngId) (p : Phys) (h : Memory.wf s.mem = true) :
    Memory.wf (touchLine s e p).mem = true := by
  simp [touchLine, h]

@[simp] theorem storeCached_keeps (s : State) (e : EngId) (pa : Nat) (w : Word) (h : Memory.wf s.mem = true) :
    Memory.wf (storeCached s e pa w).mem = true := by
  simp [storeCached, h]

@[simp] theorem performEntry_keeps (s : State) (e : EngId) (b : SbEntry) (h : Memory.wf s.mem = true) :
    Memory.wf (performEntry s e b).mem = true := by
  unfold performEntry; (try dsimp only); repeat' split
  all_goals simp (maxDischargeDepth := 12) +contextual [*, foldl_keeps, foldl_mem]

@[simp] theorem drainOne_keeps (s : State) (e : EngId) (h : Memory.wf s.mem = true) :
    Memory.wf (drainOne s e).mem = true := by
  unfold drainOne; repeat' split
  all_goals simp [h]

@[simp] theorem drainN_keeps (s : State) (e : EngId) (n : Nat) (h : Memory.wf s.mem = true) : Memory.wf (drainN s e n).mem = true := by
  induction n generalizing s with
  | zero => exact h
  | succ n ih => exact ih _ (drainOne_keeps s e h)


@[simp] theorem drainAll_keeps (s : State) (e : EngId) (h : Memory.wf s.mem = true) :
    Memory.wf (drainAll s e).mem = true := by
  simp [drainAll, h]

@[simp] theorem pushEntry_keeps (s : State) (e : EngId) (b : SbEntry) (h : Memory.wf s.mem = true) :
    Memory.wf (pushEntry s e b).mem = true := by
  simp [pushEntry, h]

@[simp] theorem storeWords_keeps (s : State) (e : EngId) (ps : List Phys) (ws : List Word) (h : Memory.wf s.mem = true) :
    Memory.wf (storeWords s e ps ws).mem = true := by
  simp +contextual [storeWords, h, foldl_keeps]

@[simp] theorem touchStores_keeps (s : State) (e : EngId) (ps : List Phys) (h : Memory.wf s.mem = true) :
    Memory.wf (touchStores s e ps).mem = true := by
  simp +contextual [touchStores, h, foldl_keeps]

theorem readTarget_place_keeps (s : State) (e : EngId) (p : Phys) (a b : Nat) (h : Memory.wf s.mem = true) :
    Memory.wf (show Word × Bool × State from
      match regionOf p.pa with
      | .csr => let r := csrRead (.eng e.val) (p.pa - a) s; (r.1, false, r.2)
      | .board => (boardWindow s (p.pa - b), false, s)
      | .host => (0#16, false, s)
      | .none => (0#16, false, s)
      | _ => (s.readMem p.pa, isBad s p.pa, s)).2.2.mem = true := by
  generalize regionOf p.pa = r
  have hm := csrRead_mem (.eng e.val) (p.pa - a) s
  cases r
  case csr => dsimp only; rw [hm]; exact h
  all_goals exact h

theorem readTarget_keeps (s : State) (e : EngId) (p : Phys) (h : Memory.wf s.mem = true) :
    Memory.wf (readTarget s e p).2.2.mem = true := by
  have hp := readTarget_place_keeps s e p 0x6000000000 0x5000000000 h
  unfold readTarget
  split
  · exact touchLine_keeps s e p h
  · exact hp


@[simp] theorem readTargets_keeps (s : State) (e : EngId) (ps : List Phys) (h : Memory.wf s.mem = true) :
    Memory.wf (readTargets s e ps).2.2.mem = true := by
  induction ps generalizing s with
  | nil => exact h
  | cons p ps ih => exact ih _ (readTarget_keeps s e p h)


@[simp] theorem loadWords_keeps (s : State) (e : EngId) (ps : List Phys) (h : Memory.wf s.mem = true) :
    Memory.wf (loadWords s e ps).2.mem = true := by
  unfold loadWords
  have h1 := drainN_keeps s e (if ps = [] then 0 else devPlace (s.engAt e).sb) h
  generalize drainN s e (if ps = [] then 0 else devPlace (s.engAt e).sb) = u at *
  dsimp only
  cases sbAnswer (u.engAt e) ps with
  | forward bs => exact h1
  | memory =>
    have h2 := readTargets_keeps u e ps h1
    dsimp only
    repeat' split
    all_goals first | exact h1 | exact h2
  | drain n =>
    generalize hv : ((drainN u e n).modEng e fun x =>
      x.count (perfKeys e) 9 (if ((ps.any fun p => p.dev) || n == 0) = true then 0 else 1)) = v
    have h2 : Memory.wf v.mem = true := by rw [← hv]; simpa using drainN_keeps u e n h1
    have h3 := readTargets_keeps v e ps h2
    dsimp only
    rw [hv]
    repeat' split
    all_goals first | exact h2 | exact h3


@[simp] theorem finishPadding_mem (s : State) (src : Nat) :
    (finishPadding s src).mem = s.mem := by
  simp [finishPadding, foldl_mem]

@[simp] theorem State.modBe_mem (s : State) (id : Nat) (f : BeJob → BeJob) :
    (State.modBe s id f).mem = s.mem := by
  rfl

@[simp] theorem State.mark_mem (s : State) (c : Nat) (f : JobEnd → JobEnd) :
    (State.mark s c f).mem = s.mem := by
  rfl

@[simp] theorem State.jobFallback_mem (s : State) (e : EngId) (f : JobEnd → JobEnd) :
    (State.jobFallback s e f).mem = s.mem := by
  unfold State.jobFallback; repeat' split
  all_goals simp

@[simp] theorem onHostLoad_mem (s : State) (e : EngId) :
    (onHostLoad s e).mem = s.mem := by
  unfold onHostLoad; repeat' split
  all_goals simp

@[simp] theorem onJobStart_mem (s : State) (e : EngId) :
    (onJobStart s e).mem = s.mem := by
  unfold onJobStart; (try dsimp only); repeat' split
  all_goals simp [*]

@[simp] theorem startJob_mem (s : State) (e : EngId) (ws : List Word) :
    (startJob s e ws).mem = s.mem := by
  simp [startJob]

@[simp] theorem State.copyWords_keeps (s : State) (src : Nat) (dst : Nat) (n : Nat) (h : Memory.wf s.mem = true) :
    Memory.wf (State.copyWords s src dst n).mem = true := by
  simp +contextual [State.copyWords, h, foldl_keeps]

@[simp] theorem State.fallbackChannel_keeps (s : State) (c : Nat) (g : Nat) (i : Nat) (m : Member) (h : Memory.wf s.mem = true) :
    Memory.wf (State.fallbackChannel s c g i m).1.mem = true := by
  simp [State.fallbackChannel, h]

@[simp] theorem State.fallbackList_keeps (s : State) (c g : Nat) (h : Memory.wf s.mem = true) :
    Memory.wf (State.fallbackList s c g).1.mem = true := by
  unfold State.fallbackList
  refine List.foldlRecOn (motive := fun r : State × List (List Word) => Memory.wf r.1.mem = true) _ _ h ?_
  intro r hr q _
  dsimp only
  repeat' split
  all_goals first
    | exact State.fallbackChannel_keeps _ _ _ _ _ hr
    | exact hr

@[simp] theorem State.writeBack_keeps (s : State) (c : Nat) (g : Nat) (h : Memory.wf s.mem = true) :
    Memory.wf (State.writeBack s c g).mem = true := by
  unfold State.writeBack; (try dsimp only); repeat' split
  all_goals simp (maxDischargeDepth := 12) +contextual [*, foldl_keeps, foldl_mem]

@[simp] theorem State.sendCoachState_mem (s : State) (c : Nat) (g : Nat) :
    (State.sendCoachState s c g).mem = s.mem := by
  simp [State.sendCoachState]

@[simp] theorem State.resyncSent_mem (s : State) :
    (State.resyncSent s).mem = s.mem := by
  simp [State.resyncSent]

@[simp] theorem State.handOff_keeps (s : State) (c : Nat) (g : Nat) (h : Memory.wf s.mem = true) :
    Memory.wf (State.handOff s c g).mem = true := by
  simp [State.handOff, h]

@[simp] theorem State.coachJobEnd_keeps (s : State) (c : Nat) (g : Nat) (charge : Nat) (h : Memory.wf s.mem = true) :
    Memory.wf (State.coachJobEnd s c g charge).mem = true := by
  simp [State.coachJobEnd, h]

@[simp] theorem State.beMoved_mem (s : State) (j : BeJob) (r : Nat) (t : Nat) :
    (State.beMoved s j r t).mem = s.mem := by
  simp [State.beMoved]

@[simp] theorem State.beWriteBack_keeps (s : State) (j : BeJob) (t : Nat) (h : Memory.wf s.mem = true) :
    Memory.wf (State.beWriteBack s j t).mem = true := by
  unfold State.beWriteBack; repeat' split
  all_goals simp [h]

@[simp] theorem State.beJobEnd_keeps (s : State) (j : BeJob) (charge : Nat) (h : Memory.wf s.mem = true) :
    Memory.wf (State.beJobEnd s j charge).mem = true := by
  unfold State.beJobEnd; (try dsimp only); repeat' split
  all_goals simp [*]

@[simp] theorem onJobEnd_keeps (s : State) (e : EngId) (h : Memory.wf s.mem = true) :
    Memory.wf (onJobEnd s e).mem = true := by
  unfold onJobEnd; (try dsimp only); repeat' split
  all_goals simp [*]

@[simp] theorem onOverrun_mem (s : State) (e : EngId) :
    (onOverrun s e).mem = s.mem := by
  unfold onOverrun; (try dsimp only); repeat' split
  all_goals simp [*]

@[simp] theorem onBoardOpen_mem (s : State) (e : EngId) (lost : Bool) :
    (onBoardOpen s e lost).mem = s.mem := by
  simp [onBoardOpen]

@[simp] theorem onMachineCheck_mem (s : State) (e : EngId) (sub : Nat) (at_ : Nat) :
    (onMachineCheck s e sub at_).mem = s.mem := by
  unfold onMachineCheck; (try dsimp only); repeat' split
  all_goals simp [*]

@[simp] theorem State.periodLost_keeps (s : State) (c : Nat) (g : Nat) (started : Option Nat) (f : JobEnd → JobEnd) (h : Memory.wf s.mem = true) :
    Memory.wf (State.periodLost s c g started f).mem = true := by
  simp [State.periodLost, h]

@[simp] theorem State.reckonerCheckstop_keeps (s : State) (e : EngId) (h : Memory.wf s.mem = true) :
    Memory.wf (State.reckonerCheckstop s e).mem = true := by
  unfold State.reckonerCheckstop
  dsimp only
  rw [State.drainOut_mem]
  refine foldl_keeps _ (fun s j hs => State.beJobEnd_keeps _ _ _ hs) _ _ (foldl_keeps _ (fun s y hs => ?_) _ _ ?_)
  · split
    · exact State.periodLost_keeps _ _ _ _ _ hs
    · exact hs
  · split <;> simpa using h

@[simp] theorem onCheckstop_keeps (s : State) (e : EngId) (h : Memory.wf s.mem = true) :
    Memory.wf (onCheckstop s e).mem = true := by
  simp [onCheckstop, h]

@[simp] theorem State.padLost_mem (s : State) (c : Nat) :
    (State.padLost s c).mem = s.mem := by
  unfold State.padLost; repeat' split
  all_goals simp

@[simp] theorem State.uncheck_mem (s : State) (e : EngId) :
    (State.uncheck s e).mem = s.mem := by
  simp [State.uncheck]

@[simp] theorem onHalt_mem (s : State) (e : EngId) (cause : Nat) :
    (onHalt s e cause).mem = s.mem := by
  simp [onHalt]

@[simp] theorem State.vcoreRise_mem (s : State) :
    (State.vcoreRise s).mem = s.mem := by
  unfold State.vcoreRise; repeat' split
  all_goals simp

@[simp] theorem State.debugExpire_mem (s : State) :
    (State.debugExpire s).mem = s.mem := by
  simp [State.debugExpire]

@[simp] theorem State.deadlineMiss_mem (s : State) (e : EngId) :
    (State.deadlineMiss s e).mem = s.mem := by
  simp [State.deadlineMiss]

@[simp] theorem State.watchdogs_mem (s : State) :
    (State.watchdogs s).mem = s.mem := by
  simp [State.watchdogs, foldl_mem]

@[simp] theorem queueWrite_keeps (s : State) (e : EngId) (source : Nat) (sender : Word) (stamp : Nat) (data : List Word) (h : Memory.wf s.mem = true) :
    Memory.wf (queueWrite s e source sender stamp data).mem = true := by
  unfold queueWrite; (try dsimp only); repeat' split
  all_goals simp (maxDischargeDepth := 12) [*]

@[simp] theorem queueDrop_mem (s : State) (e : EngId) :
    (queueDrop s e).mem = s.mem := by
  rfl

@[simp] theorem deliver_keeps (s : State) (e : EngId) (source : Nat) (sender : Word) (stamp : Nat) (data : List Word) (h : Memory.wf s.mem = true) :
    Memory.wf (deliver s e source sender stamp data).1.mem = true := by
  simp [deliver, h]

@[simp] theorem sendMessage_keeps (s : State) (src : EngId) (w : Word) (data : List Word) (h : Memory.wf s.mem = true) :
    Memory.wf (sendMessage s src w data).1.mem = true := by
  unfold sendMessage; (try dsimp only); repeat' split
  all_goals simp [*]

end Sys2Proof.Machine
end

