-- ==== Sys2Proof/Laws/KeepOps.lean ====
section
/-! SUPPORT. An instruction at its engine's point keeps the memory's canonical form when its own effect does, whatever else befalls it. -/
namespace Sys2Proof.Machine

@[simp] theorem haltEng_mem (s : State) (e : EngId) (cause : Nat) :
    (haltEng s e cause).mem = s.mem := by
  simp [haltEng]

@[simp] theorem openRead_mem (s : State) (e : EngId) (exc : Exc) :
    (openRead s e exc).mem = s.mem := by
  unfold openRead; repeat' split
  all_goals simp

@[simp] theorem spillLine_keeps (s : State) (e : EngId) (exc : Exc) (h : Memory.wf s.mem = true) :
    Memory.wf (spillLine s e exc).mem = true := by
  unfold spillLine; repeat' split
  all_goals simp [h]

@[simp] theorem uncorrSeen_keeps (s : State) (p : Option Phys) (h : Memory.wf s.mem = true) :
    Memory.wf (uncorrSeen s p).mem = true := by
  unfold uncorrSeen; repeat' split
  all_goals simp [h]

@[simp] theorem takeExc_keeps (s : State) (e : EngId) (len : Nat) (exc : Exc) (h : Memory.wf s.mem = true) :
    Memory.wf (takeExc s e len exc).mem = true := by
  unfold takeExc; (try dsimp only); repeat' split
  all_goals simp (maxDischargeDepth := 12) [*]

@[simp] theorem takeOverrun_keeps (s : State) (e : EngId) (len : Nat) (h : Memory.wf s.mem = true) :
    Memory.wf (takeOverrun s e len).mem = true := by
  simp [takeOverrun, h]

@[simp] theorem stepDone_mem (s : State) (e : EngId) :
    (stepDone s e).mem = s.mem := by
  simp [stepDone]

@[simp] theorem retire_mem (s : State) (e : EngId) (x0 : Engine) (sh : Shape) (fps : List Phys) (chg : Nat) (fl : Flow) :
    (retire s e x0 sh fps chg fl).mem = s.mem := by
  simp [retire]

@[simp] theorem retireAnnulled_keeps (s : State) (e : EngId) (len : Nat) (h : Memory.wf s.mem = true) :
    Memory.wf (retireAnnulled s e len).mem = true := by
  simp [retireAnnulled, h]

@[simp] theorem startHostLoad_mem (s : State) (e : EngId) (p : PendLoad) :
    (startHostLoad s e p).mem = s.mem := by
  simp [startHostLoad]

@[simp] theorem State.invalsEnd_mem (s : State) :
    (State.invalsEnd s).mem = s.mem := by
  simp [State.invalsEnd, foldl_mem]

@[simp] theorem State.loadEnded_mem (s : State) (e : EngId) :
    (State.loadEnded s e).mem = s.mem := by
  unfold State.loadEnded; (try dsimp only); repeat' split
  all_goals simp [*]

@[simp] theorem hostTranslated_mem (s : State) (e : EngId) (p : PendLoad) :
    (hostTranslated s e p).mem = s.mem := by
  simp [hostTranslated, foldl_mem]

@[simp] theorem hostRefused_keeps (s : State) (e : EngId) (len : Nat) (exc : Exc) (h : Memory.wf s.mem = true) :
    Memory.wf (hostRefused s e len exc).mem = true := by
  simp [hostRefused, h]

@[simp] theorem divert_keeps (s : State) (e : EngId) (len : Nat) (a3 : Divert) (h : Memory.wf s.mem = true) :
    Memory.wf (divert s e len a3).mem = true := by
  unfold divert; repeat' split
  all_goals simp [h]

@[simp] theorem settleHalt_keeps (s : State) (e : EngId) (h : Memory.wf s.mem = true) :
    Memory.wf (settleHalt s e).mem = true := by
  unfold settleHalt; repeat' split
  all_goals simp [h]

@[simp] theorem takeInterrupt_keeps (s : State) (e : EngId) (l : Nat) (abandon : Bool) (h : Memory.wf s.mem = true) :
    Memory.wf (takeInterrupt s e l abandon).mem = true := by
  simp [takeInterrupt, h]

theorem execute_keeps (s : State) (e : EngId) (sh : Shape) (pl : Plan) (fps : List Phys) (aps : List (List Phys)) (fl : Flow)
    (body : Regs → List (List Phys) → State → Except Exc State)
    (hb : ∀ rd u t, Memory.wf u.mem = true → body rd aps u = .ok t → Memory.wf t.mem = true) (h : Memory.wf s.mem = true) :
    Memory.wf (execute s e sh pl fps aps fl body).mem = true := by
  unfold execute
  dsimp only
  repeat' split
  all_goals first
    | (simp [h]; done)
    | (rename_i ht _ _ _; have ht' := hb _ _ _ (by simpa using h) ht; simp [h, ht'])

@[simp] theorem annulledSlot_keeps (s : State) (e : EngId) (len : Nat) (h : Memory.wf s.mem = true) :
    Memory.wf (annulledSlot s e len).mem = true := by
  unfold annulledSlot; repeat' split
  all_goals simp [h]

/-- An instruction whose effect keeps the memory's canonical form keeps it, whatever else befalls it. -/
theorem issue_keeps (sh : Shape) (plan : Regs → Engine → Plan) (flow : Regs → Engine → Flow)
    (body : Regs → List (List Phys) → State → Except Exc State) (e : EngId) (s : State)
    (hb : ∀ rd aps u t, Memory.wf u.mem = true → body rd aps u = .ok t → Memory.wf t.mem = true) (h : Memory.wf s.mem = true) :
    Memory.wf (issue sh plan flow body e s).mem = true := by
  unfold issue
  dsimp only
  repeat' split
  all_goals first
    | simp [h]; done
    | exact settleHalt_keeps _ _ (execute_keeps _ _ _ _ _ _ _ _ (fun rd u t => hb rd _ u t) h)

/-- An instruction that touches only its engine's registers. -/
theorem issueRegs_keeps (sh : Shape) (plan : Regs → Engine → Plan) (f : Regs → Regs → Regs) (e : EngId) (s : State)
    (h : Memory.wf s.mem = true) :
    Memory.wf (issue sh plan (fun _ _ => .seq) (fun rd _ s => .ok (s.modEng e fun x => { x with regs := f rd x.regs })) e s).mem = true :=
  issue_keeps _ _ _ _ _ _ (fun _ _ _ _ hu ht => by cases ht; exact hu) h


end Sys2Proof.Machine
end

