-- ==== Sys2Proof/Laws/KeepEngine.lean ====
section
/-! SUPPORT. The shapes of the engines' instructions keep the memory's canonical form: loads, stores, atomics, strings, branches, the system group. -/
namespace Sys2Proof.Machine

theorem branchOp_keeps (words : List Word) (cond call annul : Bool) (taken : Regs → Bool) (target : Regs → Engine → Addr)
    (e : EngId) (s t : State) (h : Memory.wf s.mem = true) (ht : branchOp words cond call annul taken target e s = .next t) :
    Memory.wf t.mem = true := by
  cases ht
  exact issue_keeps _ _ _ _ _ _ (fun _ _ _ _ hu hb => by cases hb; exact hu) h


theorem finishLoad_keeps (s t : State) (e : EngId) (rd : Regs) (dst : LoadDst) (upd : Option (Nat × Addr)) (ws : List Word)
    (h : Memory.wf s.mem = true) (ht : finishLoad s e rd dst upd ws = .ok t) : Memory.wf t.mem = true := by
  unfold finishLoad at ht
  cases dst
  all_goals dsimp only at ht
  all_goals (try split at ht) <;> cases ht
  all_goals simp (maxDischargeDepth := 12) [h]


theorem loadBody_keeps (e : EngId) (dst : LoadDst) (upd : Regs → Option (Nat × Addr)) (rd : Regs) (aps : List (List Phys)) (s t : State)
    (h : Memory.wf s.mem = true) (ht : loadBody e dst upd rd aps s = .ok t) : Memory.wf t.mem = true := by
  unfold loadBody at ht
  have hl := loadWords_keeps s e aps.flatten h
  split at ht
  · cases ht
  · rename_i heq
    rw [heq] at hl
    exact finishLoad_keeps _ _ _ _ _ _ _ hl ht


theorem loadOp_keeps (words : List Word) (writes : List Res) (lacks : Bool) (z : Nat) (ea : Regs → Engine → Ea) (dst : LoadDst)
    (e : EngId) (s t : State) (h : Memory.wf s.mem = true) (ht : loadOp words writes lacks z ea dst e s = .next t) :
    Memory.wf t.mem = true := by
  cases ht
  exact issue_keeps _ _ _ _ _ _ (fun _ _ _ _ hu hb => loadBody_keeps _ _ _ _ _ _ _ hu hb) h


/-- What a store of translated words leaves of the memory's form. -/
theorem storeAccess_keeps (s t : State) (e : EngId) (ps : List Phys) (ws : List Word) (h : Memory.wf s.mem = true)
    (ht : storeAccess s e ps ws = .ok t) : Memory.wf t.mem = true := by
  unfold storeAccess at ht
  dsimp only at ht
  split at ht
  · cases ht
  · cases ht; simp [h]

theorem storeOp_keeps (words : List Word) (writes : List Res) (lacks : Bool) (z : Nat) (ea : Regs → Engine → Ea) (val : Regs → List Word)
    (e : EngId) (s t : State) (h : Memory.wf s.mem = true) (ht : storeOp words writes lacks z ea val e s = .next t) :
    Memory.wf t.mem = true := by
  cases ht
  exact issue_keeps _ _ _ _ _ _ (fun _ _ _ _ hu hb => by
    rw [Except.map.eq_def] at hb
    split at hb
    · cases hb
    · rename_i ha; cases hb; simpa using storeAccess_keeps _ _ _ _ _ hu ha) h


theorem atomicOp_keeps (words : List Word) (writes : List Res) (a : Fin 16) (new : Regs → Word → Option Word)
    (fin : Regs → Word → Regs → Regs) (e : EngId) (s t : State) (h : Memory.wf s.mem = true)
    (ht : atomicOp words writes a new fin e s = .next t) : Memory.wf t.mem = true := by
  cases ht
  refine issue_keeps _ _ _ _ _ _ (fun rd aps v u hv hb => ?_) h
  dsimp only at hb
  split at hb
  · cases hb; exact hv
  · split at hb
    · cases hb
    · cases hb
      rw [State.modEng_mem]
      split
      · exact writeMem_wf _ _ _ (drainAll_keeps _ _ hv)
      · exact drainAll_keeps _ _ hv


@[simp] theorem strRetire_keeps (s : State) (e : EngId) (k : StrKind) (fps : List Phys) (early : Option (List Word)) (irq : Option Nat)
    (h : Memory.wf s.mem = true) : Memory.wf (strRetire s e k fps early irq).mem = true := by
  unfold strRetire
  dsimp only
  repeat' split
  all_goals simp [h]

@[simp] theorem strPerform_mem (t : State) (e : EngId) (k : StrKind) (chg : Nat) :
    (strPerform t e k chg).mem = t.mem := by
  simp [strPerform]

theorem strStore_keeps (s t : State) (e : EngId) (k : StrKind) (aps : List (List Phys)) (ws : List Word) (h : Memory.wf s.mem = true)
    (ht : strStore s e k aps ws = .ok t) : Memory.wf t.mem = true := by
  unfold strStore at ht
  split at ht
  · exact storeAccess_keeps _ _ _ _ _ h ht
  · exact storeAccess_keeps _ _ _ _ _ h ht
  · cases ht; exact h

/-- The device a pass of a string instruction leaves. -/
theorem strElement_keeps (s : State) (e : EngId) (k : StrKind) (fps : List Phys) (aps : List (List Phys)) (ws : List Word) (irq : Option Nat)
    (h : Memory.wf s.mem = true) : Memory.wf (strElement s e k fps aps ws irq).state.mem = true := by
  unfold strElement
  dsimp only
  split
  · simp [StrOut.state, h]
  split
  · simp [StrOut.state, h]
  · rename_i hs
    have ht := strStore_keeps _ _ _ _ _ _ h hs
    repeat' split
    all_goals simp [StrOut.state, h, ht]

theorem strStep_keeps (s : State) (e : EngId) (k : StrKind) (h : Memory.wf s.mem = true) :
    Memory.wf (strStep s e k).state.mem = true := by
  unfold strStep
  dsimp only
  have hl := fun ps => loadWords_keeps s e ps h
  repeat' split
  all_goals first
    | (simp [StrOut.state, h]; done)
    | (rename_i heq; have hl' := heq ▸ hl _; exact strElement_keeps _ _ _ _ _ _ _ hl')

@[simp] theorem strRun_keeps (k : StrKind) (e : EngId) (n : Nat) (s : State) (h : Memory.wf s.mem = true) :
    Memory.wf (strRun k e n s).mem = true := by
  induction n generalizing s with
  | zero => exact h
  | succ n ih =>
    unfold strRun
    have hs := strStep_keeps s e k h
    split
    · rename_i t ht; rw [ht] at hs; exact settleHalt_keeps _ _ hs
    · rename_i t ht
      rw [ht] at hs
      split
      · exact settleHalt_keeps _ _ hs
      · exact ih _ hs

@[simp] theorem hostComplete_keeps (s : State) (e : EngId) (p : PendLoad) (data : List Word) (h : Memory.wf s.mem = true) :
    Memory.wf (hostComplete s e p data).mem = true := by
  unfold hostComplete
  generalize hv : State.count (s.modEng e fun x => { x with run := .running }) 3166 1 = v
  have hm : Memory.wf v.mem = true := by rw [← hv]; simpa using h
  clear hv
  dsimp only
  generalize hw : ({ v with fv := v.fv + (fillWords v.fv p.words data).length } : State) = w
  have hm' : Memory.wf w.mem = true := by rw [← hw]; exact hm
  clear hw
  split
  · split
    · exact takeExc_keeps _ _ _ _ hm'
    · exact strElement_keeps _ _ _ _ _ _ _ hm'
  · split
    · exact takeExc_keeps _ _ _ _ hm'
    · rename_i ht
      have hf := finishLoad_keeps _ _ _ _ _ _ _ hm' ht
      split
      · exact takeOverrun_keeps _ _ _ hm'
      · simpa using hf


@[simp] theorem hostFailed_keeps (s : State) (e : EngId) (p : PendLoad) (k : Nat) (h : Memory.wf s.mem = true) :
    Memory.wf (hostFailed s e p k).mem = true := by
  simp [hostFailed, h]

theorem sysOp_keeps (fn sreg : Nat) (priv : Mode) (base : Nat) (slotIll : Bool) (f : Regs → Engine → Engine) (e : EngId) (s t : State)
    (h : Memory.wf s.mem = true) (ht : sysOp fn sreg priv base slotIll f e s = .next t) : Memory.wf t.mem = true := by
  cases ht
  exact issue_keeps _ _ _ _ _ _ (fun _ _ _ _ hu hb => by cases hb; exact hu) h


theorem cacheOp_keeps (fn : Nat) (a : Fin 16) (priv : Mode) (kind : Kind) (f : State → Phys → State) (e : EngId) (s t : State)
    (hf : ∀ u p, Memory.wf u.mem = true → Memory.wf (f u p).mem = true) (h : Memory.wf s.mem = true)
    (ht : cacheOp fn a priv kind f e s = .next t) : Memory.wf t.mem = true := by
  cases ht
  refine issue_keeps _ _ _ _ _ _ (fun rd aps v u hv hb => ?_) h
  split at hb
  · split at hb
    · cases hb
    · cases hb; exact hf _ _ hv
  · cases hb; exact hv


@[simp] theorem cleanLine_keeps (s : State) (e : EngId) (line : Nat) (h : Memory.wf s.mem = true) :
    Memory.wf (cleanLine s e line).mem = true := by
  unfold cleanLine; repeat' split
  all_goals simp [h]

@[simp] theorem dropLine_mem (s : State) (e : EngId) (line : Nat) :
    (dropLine s e line).mem = s.mem := by
  rfl

@[simp] theorem settleLine_keeps (s : State) (e : EngId) (line : Nat) (h : Memory.wf s.mem = true) :
    Memory.wf (settleLine s e line).mem = true := by
  simp [settleLine, h]

@[simp] theorem endJob_keeps (s : State) (e : EngId) (h : Memory.wf s.mem = true) :
    Memory.wf (endJob s e).mem = true := by
  simp [endJob, h]

end Sys2Proof.Machine
end

