-- ==== Sys2Proof/Laws/KeepDomains.lean ====
section
/-! SUPPORT. The twin's bookkeeping leaves memory as it is; what a domain loses keeps the memory's canonical form. -/
namespace Sys2Proof.Machine

@[simp] theorem filter_wf (p : Host.Cell → Bool) (m : List Host.Cell) (h : Memory.wf m = true) : Memory.wf (m.filter p) = true :=
  tblWf_filter 0#8 p m h

@[simp] theorem State.wipe_keeps (s : State) (lo hi : Nat) (h : Memory.wf s.mem = true) : Memory.wf (s.wipe lo hi).mem = true :=
  filter_wf _ _ h


@[simp] theorem State.frameOff_keeps (s : State) (f : Nat) (h : Memory.wf s.mem = true) :
    Memory.wf (State.frameOff s f).mem = true := by
  unfold State.frameOff; (try dsimp only); repeat' split
  all_goals simp (maxDischargeDepth := 12) +contextual [*, foldl_keeps, foldl_mem]

@[simp] theorem State.frameShadows_mem (s : State) (f : Nat) :
    (State.frameShadows s f).mem = s.mem := by
  rfl

@[simp] theorem State.frameStartUp_mem (s : State) (f : Nat) :
    (State.frameStartUp s f).mem = s.mem := by
  simp [State.frameStartUp]

@[simp] theorem State.startEngine_keeps (s : State) (e : EngId) (pc : Addr) (h : Memory.wf s.mem = true) :
    Memory.wf (State.startEngine s e pc).mem = true := by
  simp [State.startEngine, h]

@[simp] theorem State.frameZero_keeps (s : State) (f : Nat) (h : Memory.wf s.mem = true) :
    Memory.wf (State.frameZero s f).mem = true := by
  simp [State.frameZero, h]

@[simp] theorem State.placePiece_keeps (s : State) (base : Nat) (size : Nat) (field : Nat) (octets : List Byte) (h : Memory.wf s.mem = true) :
    Memory.wf (State.placePiece s base size field octets).mem = true := by
  simp [State.placePiece, h]

@[simp] theorem State.placeKernel_keeps (s : State) (f : Nat) (octets : List Byte) (h : Memory.wf s.mem = true) :
    Memory.wf (State.placeKernel s f octets).mem = true := by
  simp [State.placeKernel, h]

@[simp] theorem State.startReckoner_keeps (s : State) (r : Nat) (h : Memory.wf s.mem = true) :
    Memory.wf (State.startReckoner s r).mem = true := by
  simp [State.startReckoner, h]

@[simp] theorem State.framePowered_keeps (s : State) (f : Nat) (ok : Bool) (h : Memory.wf s.mem = true) :
    Memory.wf (State.framePowered s f ok).mem = true := by
  unfold State.framePowered; (try dsimp only); repeat' split
  all_goals simp (maxDischargeDepth := 12) +contextual [*, foldl_keeps, foldl_mem]

@[simp] theorem State.frameRetired_keeps (s : State) (f : Nat) (h : Memory.wf s.mem = true) :
    Memory.wf (State.frameRetired s f).mem = true := by
  simp [State.frameRetired, h]

@[simp] theorem State.pairDomains_keeps (s : State) (h : Memory.wf s.mem = true) :
    Memory.wf (State.pairDomains s).mem = true := by
  simp [State.pairDomains, h]

@[simp] theorem State.coreLost_keeps (s : State) (kept : List Nat) (dram : Bool) (h : Memory.wf s.mem = true) :
    Memory.wf (State.coreLost s kept dram).mem = true := by
  exact filter_wf _ _ h

@[simp] theorem State.slotsLost_mem (s : State) :
    (State.slotsLost s).mem = s.mem := by
  unfold State.slotsLost
  exact foldl_mem (fun s k => s.setBit 0x010404 k) (fun _ _ => rfl) _ _

@[simp] theorem State.noteMixed_mem (s : State) :
    (State.noteMixed s).mem = s.mem := by
  simp [State.noteMixed]

@[simp] theorem State.restarted_keeps (s : State) (cause : Nat) (h : Memory.wf s.mem = true) :
    Memory.wf (State.restarted s cause).mem = true := by
  simp [State.restarted, h]

@[simp] theorem State.unfenced_mem (s : State) :
    (State.unfenced s).mem = s.mem := by
  rfl

@[simp] theorem State.coreOff_keeps (s : State) (h : Memory.wf s.mem = true) :
    Memory.wf (State.coreOff s).mem = true := by
  simp [State.coreOff, h]

@[simp] theorem State.setRole_mem (s : State) (role : Nat) (sync : Bool) :
    (State.setRole s role sync).mem = s.mem := by
  rfl

@[simp] theorem State.becomePrimary_mem (s : State) :
    (State.becomePrimary s).mem = s.mem := by
  simp [State.becomePrimary]

@[simp] theorem State.syncLost_mem (s : State) :
    (State.syncLost s).mem = s.mem := by
  simp [State.syncLost]

@[simp] theorem State.unexplainedOne_mem (s : State) :
    (State.unexplainedOne s).mem = s.mem := by
  simp [State.unexplainedOne]

@[simp] theorem State.dropDigests_mem (s : State) (c : Nat) :
    (State.dropDigests s c).mem = s.mem := by
  rfl

@[simp] theorem State.resolve_mem (s : State) (c : Nat) (cls : Nat) :
    (State.resolve s c cls).mem = s.mem := by
  simp [State.resolve]

@[simp] theorem State.differ_mem (s : State) (d : Digest) (t : Digest) :
    (State.differ s d t).mem = s.mem := by
  simp [State.differ]

@[simp] theorem State.differUnlessHeld_mem (s : State) (d : Digest) (t : Digest) :
    (State.differUnlessHeld s d t).mem = s.mem := by
  simp [State.differUnlessHeld]

@[simp] theorem State.settleDigests_mem (s : State) :
    (State.settleDigests s).mem = s.mem := by
  simp [State.settleDigests, foldl_mem]

end Sys2Proof.Machine
end

