-- ==== Sys2Proof/Laws/KeepRounds.lean ====
section
/-! SUPPORT. The Innkeeper's rounds and boundaries keep the memory's canonical form. -/
namespace Sys2Proof.Machine

@[simp] theorem State.devState_mem (s : State) :
    (State.devState s).mem = s.mem := by
  simp [State.devState]

@[simp] theorem State.policyFrame_keeps (s : State) (h : Memory.wf s.mem = true) :
    Memory.wf (State.policyFrame s).mem = true := by
  unfold State.policyFrame; (try dsimp only); repeat' split
  all_goals simp [*]

@[simp] theorem State.pendingReductions_mem (s : State) (n : Nat) :
    (State.pendingReductions s n).mem = s.mem := by
  simp [State.pendingReductions, foldl_mem]

@[simp] theorem State.mergeCoaches_mem (s : State) (a : Nat) (b : Nat) (g : Nat) :
    (State.mergeCoaches s a b g).mem = s.mem := by
  rfl

@[simp] theorem State.mergeNow_keeps (s : State) (a : Nat) (b : Nat) (g : Nat) (h : Memory.wf s.mem = true) :
    Memory.wf (State.mergeNow s a b g).mem = true := by
  simp +contextual [State.mergeNow, h, foldl_keeps]

@[simp] theorem State.mergesAt_keeps (s : State) (i : Nat) (h : Memory.wf s.mem = true) :
    Memory.wf (State.mergesAt s i).mem = true := by
  unfold State.mergesAt
  refine foldl_keeps _ (fun s x hs => ?_) _ _ h
  repeat' split
  all_goals simp [hs]

@[simp] theorem State.fullStart_keeps (s : State) (h : Memory.wf s.mem = true) :
    Memory.wf (State.fullStart s).mem = true := by
  simp +contextual [State.fullStart, h, foldl_keeps]

@[simp] theorem State.fullCheck_mem (s : State) :
    (State.fullCheck s).mem = s.mem := by
  unfold State.fullCheck; repeat' split
  all_goals simp

@[simp] theorem State.parkCheck_keeps (s : State) (h : Memory.wf s.mem = true) :
    Memory.wf (State.parkCheck s).mem = true := by
  unfold State.parkCheck; (try dsimp only); repeat' split
  all_goals simp (maxDischargeDepth := 12) +contextual [*, foldl_keeps, foldl_mem]

@[simp] theorem State.leadRound_mem (s : State) :
    (State.leadRound s).mem = s.mem := by
  simp [State.leadRound]

@[simp] theorem State.rehomeAt_mem (s : State) (b : Nat) (f : Nat) :
    (State.rehomeAt s b f).mem = s.mem := by
  simp [State.rehomeAt]

@[simp] theorem State.planBoard_mem (s : State) (b : Nat) :
    (State.planBoard s b).mem = s.mem := by
  unfold State.planBoard; (try dsimp only); repeat' split
  all_goals simp [*]

@[simp] theorem State.planCoach_mem (s : State) (c : Nat) :
    (State.planCoach s c).mem = s.mem := by
  unfold State.planCoach; (try dsimp only); repeat' split
  all_goals simp [*]

@[simp] theorem State.planMoves_mem (s : State) (made : Nat) :
    (State.planMoves s made).mem = s.mem := by
  simp [State.planMoves, foldl_mem]

@[simp] theorem State.mergeAt_mem (s : State) (merge : Option (Nat × Nat)) :
    (State.mergeAt s merge).1.mem = s.mem := by
  unfold State.mergeAt; repeat' split
  all_goals simp

@[simp] theorem State.freeBoard_mem (s : State) (b : Nat) :
    (State.freeBoard s b).mem = s.mem := by
  unfold State.freeBoard; (try dsimp only); repeat' split
  all_goals simp [*]

@[simp] theorem State.freeStream_mem (s : State) (i : Nat) :
    (State.freeStream s i).mem = s.mem := by
  unfold State.freeStream; (try dsimp only); repeat' split
  all_goals simp [*]

@[simp] theorem State.anchorsMoved_mem (s : State) (ms : List Member) :
    (State.anchorsMoved s ms).mem = s.mem := by
  unfold State.anchorsMoved
  refine foldl_mem _ (fun s x => ?_) _ _
  dsimp only
  split <;> rfl

@[simp] theorem State.kernelTurn_mem (s : State) (r : Nat) (t : Nat) :
    (State.kernelTurn s r t).mem = s.mem := by
  unfold State.kernelTurn; (try dsimp only); repeat' split
  all_goals simp [*]

@[simp] theorem State.coachBoundary_mem (s : State) (c : Nat) (g : Nat) :
    (State.coachBoundary s c g).mem = s.mem := by
  unfold State.coachBoundary; (try dsimp only); repeat' split
  all_goals simp [*, foldl_mem]

@[simp] theorem State.boardBoundary_mem (s : State) (b : Nat) (g : Nat) :
    (State.boardBoundary s b g).mem = s.mem := by
  unfold State.boardBoundary; (try dsimp only); repeat' split
  all_goals simp [*]

@[simp] theorem State.settlePosts_mem (s : State) (i : Nat) :
    (State.settlePosts s i).mem = s.mem := by
  simp [State.settlePosts, foldl_mem]

@[simp] theorem State.gridBoundary_keeps (s : State) (i : Nat) (h : Memory.wf s.mem = true) :
    Memory.wf (State.gridBoundary s i).mem = true := by
  unfold State.gridBoundary
  dsimp only
  rw [foldl_mem, foldl_mem, foldl_mem, foldl_mem]
  · refine State.mergesAt_keeps _ _ ?_
    rw [State.settlePosts_mem, foldl_mem]
    · exact h
    · intro s x
      split <;> simp
  all_goals
    intro s x
    repeat' split
  all_goals simp

@[simp] theorem State.sendDigests_mem (s : State) :
    (State.sendDigests s).mem = s.mem := by
  simp [State.sendDigests]

@[simp] theorem State.billPeriod_mem (s : State) (c : Nat) (g : Nat) :
    (State.billPeriod s c g).mem = s.mem := by
  simp [State.billPeriod]

@[simp] theorem State.billStaged_mem (s : State) (c : Nat) (g : Nat) :
    (State.billStaged s c g).mem = s.mem := by
  simp [State.billStaged]

@[simp] theorem State.installState_keeps (s : State) (c : Nat) (g : Nat) (h : Memory.wf s.mem = true) :
    Memory.wf (State.installState s c g).mem = true := by
  unfold State.installState; repeat' split
  all_goals simp [h]

@[simp] theorem State.stageIn_keeps (s : State) (c : Nat) (g : Nat) (at_ : Nat) (h : Memory.wf s.mem = true) :
    Memory.wf (State.stageIn s c g at_).mem = true := by
  unfold State.stageIn
  dsimp only
  rw [State.modCoach_mem, State.chainDone_mem]
  refine List.foldlRecOn _ _ (motive := fun (r : State × Nat) => Memory.wf r.1.mem = true) ?_ (fun r hr q _ => State.copyWords_keeps _ _ _ _ hr)
  exact foldl_keeps _ (fun s q hs => State.copyWords_keeps _ _ _ _ hs) _ _ h

@[simp] theorem State.stageFailed_keeps (s : State) (c : Nat) (g : Nat) (h : Memory.wf s.mem = true) :
    Memory.wf (State.stageFailed s c g).mem = true := by
  simp [State.stageFailed, h]

@[simp] theorem State.periodBegun_keeps (s : State) (c : Nat) (g : Nat) (h : Memory.wf s.mem = true) :
    Memory.wf (State.periodBegun s c g).mem = true := by
  simp [State.periodBegun, h]

@[simp] theorem State.haltedPeriod_keeps (s : State) (c : Nat) (h : Memory.wf s.mem = true) :
    Memory.wf (State.haltedPeriod s c).mem = true := by
  unfold State.haltedPeriod; (try dsimp only); repeat' split
  all_goals simp [*]

@[simp] theorem State.deadlines_keeps (s : State) (h : Memory.wf s.mem = true) :
    Memory.wf (State.deadlines s).mem = true := by
  simp +contextual [State.deadlines, h, foldl_keeps]

@[simp] theorem State.issueBe_keeps (s : State) (j : BeJob) (r : Nat) (round : Nat) (state : Addr) (depart : Addr) (h : Memory.wf s.mem = true) :
    Memory.wf (State.issueBe s j r round state depart).mem = true := by
  unfold State.issueBe; (try dsimp only); repeat' split
  all_goals simp (maxDischargeDepth := 12) [*]

end Sys2Proof.Machine
end

