-- ==== Sys2Proof/Laws/KeepHost.lean ====
section
/-! SUPPORT. Reading, checking, committing and completing a ring's command keep the memory's canonical form when carrying it out does. -/
namespace Sys2Proof.Machine

@[simp] theorem Ans.withBlock_s (ws : List Word) (a : Ans) : (Ans.withBlock ws a).s = a.s := rfl

@[simp] theorem Ans.withOctets_s (o : List Byte) (a : Ans) : (Ans.withOctets o a).s = a.s := rfl

@[simp] theorem Ans.no_mem (s : State) (st : Status) (detail : Nat) :
    (Ans.no s st detail).s.mem = s.mem := by
  rfl

@[simp] theorem Ans.field_mem (s : State) :
    (Ans.field s).s.mem = s.mem := by
  rfl

@[simp] theorem Ans.ok_mem (s : State) (result : Nat) :
    (Ans.ok s result).s.mem = s.mem := by
  rfl

@[simp] theorem Ans.later_mem (s : State) (w : Wait) (result : Nat) :
    (Ans.later s w result).s.mem = s.mem := by
  rfl

@[simp] theorem State.cmdRead_mem (s : State) (n : Nat) :
    (State.cmdRead s n).mem = s.mem := by
  simp [State.cmdRead]

@[simp] theorem Ans.no_s (s : State) (st : Status) (d : Nat) : (Ans.no s st d).s = s := rfl
@[simp] theorem Ans.field_s (s : State) : (Ans.field s).s = s := rfl
@[simp] theorem Ans.ok_s (s : State) (r : Nat) : (Ans.ok s r).s = s := rfl
@[simp] theorem Ans.later_s (s : State) (w : Wait) (r : Nat) : (Ans.later s w r).s = s := rfl

/-- Committing and completing a command leaves memory as carrying it out left it. -/
@[simp] theorem State.commitCmd_mem (s : State) (e : Entry) (op : Nat) (a : Ans) : (s.commitCmd e op a).mem = a.s.mem := by
  unfold State.commitCmd
  dsimp only
  repeat' split
  all_goals simp [*]


/-- A command carried out keeps the memory's canonical form when its own effect does. -/
theorem State.carryOut_keeps (s : State) (e : Entry) (op : Nat) (mgr : Bool) (used : List Nat) (body : State → Ans)
    (hb : ∀ u : State, Memory.wf u.mem = true → Memory.wf (body u).s.mem = true) (h : Memory.wf s.mem = true) :
    Memory.wf (s.carryOut e op mgr used body).mem = true := by
  unfold State.carryOut
  dsimp only
  split
  · simpa using h
  · rw [State.commitCmd_mem]
    split
    · exact hb _ (by simpa using h)
    · simpa using h

/-- A command keeps the memory's canonical form when its own effect does. -/
theorem runCmd_keeps (e : Entry) (op : Nat) (mgr : Bool) (used : List Nat) (body : State → Ans) (s : State)
    (hb : ∀ u : State, Memory.wf u.mem = true → Memory.wf (body u).s.mem = true) (h : Memory.wf s.mem = true) :
    Memory.wf (runCmd e op mgr used body s).mem = true := by
  unfold runCmd
  split
  · exact h
  · exact s.carryOut_keeps e op mgr used body hb h

@[simp] theorem Ans.unread_mem (s : State) (n : Nat) (cause : Nat) :
    (Ans.unread s n cause).s.mem = s.mem := by
  simp [Ans.unread]

/-- A read of host memory leaves memory alone when the command that goes on with what was read does. -/
@[simp] theorem State.reading_mem (s : State) {α : Type} (n addr bytes : Nat) (r : HostRead α) (keep : α → Ans → Ans) (f : α → State → Ans)
    (hk : ∀ x a, (keep x a).s = a.s) (hf : ∀ x t, (f x t).s.mem = t.mem) : (s.reading n addr bytes r keep f).s.mem = s.mem := by
  unfold State.reading
  dsimp only
  split
  · rw [hk, hf]; split <;> simp
  all_goals simp
  all_goals split <;> simp

/-- A read of host memory keeps the memory's canonical form when the command that goes on with what was read does. -/
@[simp] theorem State.reading_keeps (s : State) {α : Type} (n addr bytes : Nat) (r : HostRead α) (keep : α → Ans → Ans) (f : α → State → Ans)
    (hk : ∀ x a, (keep x a).s = a.s) (hf : ∀ x t, Memory.wf t.mem = true → Memory.wf (f x t).s.mem = true)
    (h : Memory.wf s.mem = true) : Memory.wf (s.reading n addr bytes r keep f).s.mem = true := by
  unfold State.reading
  dsimp only
  split
  · rw [hk]; refine hf _ _ ?_; split <;> simpa using h
  all_goals simp
  all_goals first | exact h | (split <;> simpa using h)

end Sys2Proof.Machine
end

