-- ==== Sys2Proof/Laws/KeepPower.lean ====
section
/-! SUPPORT. Power, images and the stages of start-up keep the memory's canonical form. -/
namespace Sys2Proof.Machine

@[simp] theorem State.writeHdr_mem (s : State) (f : List Word → List Word) :
    (State.writeHdr s f).mem = s.mem := by
  rfl

@[simp] theorem State.imageSet_mem (s : State) (o : Origin) (j : Bool) (off : Nat) (w : Word) :
    (State.imageSet s o j off w).mem = s.mem := by
  simp [State.imageSet]

@[simp] theorem State.imageReg_mem (s : State) (o : Origin) (j : Bool) (off : Nat) (w : Word) :
    (State.imageReg s o j off w).mem = s.mem := by
  simp [State.imageReg]

@[simp] theorem State.applyPiece_mem (s : State) (o : Origin) (kind : Nat) (octets : List Byte) (start : Bool) :
    (State.applyPiece s o kind octets start).mem = s.mem := by
  unfold State.applyPiece; (try dsimp only); repeat' split
  all_goals simp [*, foldl_mem]

@[simp] theorem State.piecesChanged_mem (s : State) :
    (State.piecesChanged s).mem = s.mem := by
  simp [State.piecesChanged]

@[simp] theorem State.setPiece_mem (s : State) (p : Piece) (slot : Nat) :
    (State.setPiece s p slot).mem = s.mem := by
  rfl

@[simp] theorem State.placeFirmware_keeps (s : State) (kind : Nat) (octets : List Byte) (h : Memory.wf s.mem = true) :
    Memory.wf (State.placeFirmware s kind octets).mem = true := by
  simp +contextual [State.placeFirmware, h, foldl_keeps]

@[simp] theorem State.loadPieces_keeps (s : State) (kinds : List Nat) (h : Memory.wf s.mem = true) :
    Memory.wf (State.loadPieces s kinds).mem = true := by
  unfold State.loadPieces
  refine foldl_keeps _ (fun s p hs => ?_) _ _ h
  repeat' split
  all_goals simp [hs]

@[simp] theorem State.journalRecover_mem (s : State) :
    (State.journalRecover s).mem = s.mem := by
  unfold State.journalRecover; (try dsimp only); repeat' split
  all_goals simp [*]

@[simp] theorem norWrite_mem (ok : Bool) (s : State) :
    (norWrite ok s).mem = s.mem := by
  unfold norWrite; (try dsimp only); repeat' split
  all_goals simp [*]

@[simp] theorem State.setStage_mem (s : State) (n : Nat) :
    (State.setStage s n).mem = s.mem := by
  simp [State.setStage]

@[simp] theorem State.paceEvent_mem (s : State) (bit : Nat) :
    (State.paceEvent s bit).mem = s.mem := by
  simp [State.paceEvent]

@[simp] theorem State.withdrawSpares_keeps (s : State) (h : Memory.wf s.mem = true) :
    Memory.wf (State.withdrawSpares s).mem = true := by
  simp +contextual [State.withdrawSpares, h, foldl_keeps]

@[simp] theorem State.askShed_mem (s : State) :
    (State.askShed s).mem = s.mem := by
  simp [State.askShed]

@[simp] theorem State.shedding_keeps (s : State) (h : Memory.wf s.mem = true) :
    Memory.wf (State.shedding s).mem = true := by
  simp [State.shedding, h]

@[simp] theorem State.enterYield_mem (s : State) :
    (State.enterYield s).mem = s.mem := by
  simp [State.enterYield]

@[simp] theorem State.floorCheck_mem (s : State) :
    (State.floorCheck s).mem = s.mem := by
  simp [State.floorCheck]

@[simp] theorem State.stageEval_keeps (s : State) (h : Memory.wf s.mem = true) :
    Memory.wf (State.stageEval s).mem = true := by
  unfold State.stageEval; (try dsimp only); repeat' split
  all_goals simp [*]

@[simp] theorem State.setBias_mem (s : State) (b : Int) :
    (State.setBias s b).mem = s.mem := by
  rfl

@[simp] theorem State.setVoltage_mem (s : State) (mv : Nat) :
    (State.setVoltage s mv).mem = s.mem := by
  rfl

@[simp] theorem State.controlAction_mem (s : State) (avsOk : Bool) :
    (State.controlAction s avsOk).mem = s.mem := by
  simp [State.controlAction]

@[simp] theorem State.nightAgain_keeps (s : State) (w : WakeSt) (h : Memory.wf s.mem = true) :
    Memory.wf (State.nightAgain s w).mem = true := by
  simp [State.nightAgain, h]

@[simp] theorem State.bankReleased_keeps (s : State) (bank : Nat) (h : Memory.wf s.mem = true) :
    Memory.wf (State.bankReleased s bank).mem = true := by
  simp [State.bankReleased, h]

@[simp] theorem State.releaseSlots_keeps (s : State) (t : Int) (n : Nat) (h : Memory.wf s.mem = true) :
    Memory.wf (s.releaseSlots t n).mem = true := by
  induction n generalizing s with
  | zero => exact h
  | succ n ih =>
    unfold State.releaseSlots
    split
    · exact h
    · split
      · exact h
      · exact ih _ (by simp [h])


@[simp] theorem State.signBanks_mem (s : State) :
    (State.signBanks s).mem = s.mem := by
  simp [State.signBanks, foldl_mem]

@[simp] theorem State.keepSlot_mem (s : State) :
    (State.keepSlot s).mem = s.mem := by
  rfl

@[simp] theorem State.nightDown_keeps (s : State) (h : Memory.wf s.mem = true) :
    Memory.wf (State.nightDown s).mem = true := by
  simp [State.nightDown, h]

@[simp] theorem State.keepPieces_mem (s : State) (good : List Nat) :
    (State.keepPieces s good).mem = s.mem := by
  rfl

@[simp] theorem State.checkRetained_keeps (s : State) (h : Memory.wf s.mem = true) :
    Memory.wf (State.checkRetained s).mem = true := by
  simp +contextual [State.checkRetained, h, foldl_keeps]

@[simp] theorem State.mainDomains_mem (s : State) (on : Bool) :
    (State.mainDomains s on).mem = s.mem := by
  rfl

@[simp] theorem State.wakeStewards_keeps (s : State) (h : Memory.wf s.mem = true) :
    Memory.wf (State.wakeStewards s).mem = true := by
  simp +contextual [State.wakeStewards, h, foldl_keeps]

@[simp] theorem State.setStartStage_mem (s : State) (n : Nat) :
    (State.setStartStage s n).mem = s.mem := by
  rfl

@[simp] theorem State.startUp_mem (s : State) (strap : Bool) :
    (State.startUp s strap).mem = s.mem := by
  simp [State.startUp]

@[simp] theorem State.linkReady_mem (s : State) :
    (State.linkReady s).mem = s.mem := by
  simp [State.linkReady]

@[simp] theorem State.enterRecovery_keeps (s : State) (h : Memory.wf s.mem = true) :
    Memory.wf (State.enterRecovery s).mem = true := by
  simp +contextual [State.enterRecovery, h, foldl_keeps]

@[simp] theorem State.chooseSlot_mem (s : State) :
    (State.chooseSlot s).2.mem = s.mem := by
  unfold State.chooseSlot; repeat' split
  all_goals simp

@[simp] theorem State.imageStage_keeps (s : State) (h : Memory.wf s.mem = true) :
    Memory.wf (State.imageStage s).mem = true := by
  simp [State.imageStage, h]

@[simp] theorem State.keptEntry_mem (s : State) (x : Nat × Nat × Nat) :
    (State.keptEntry s x).mem = s.mem := by
  simp [State.keptEntry]

@[simp] theorem State.repairEntry_mem (s : State) (x : Nat × Nat) :
    (State.repairEntry s x).mem = s.mem := by
  simp [State.repairEntry]

@[simp] theorem State.startEntries_mem (s : State) :
    (State.startEntries s).mem = s.mem := by
  unfold State.startEntries; (try dsimp only); repeat' split
  all_goals simp [*, foldl_mem]

@[simp] theorem State.framesStage_mem (s : State) :
    (State.framesStage s).mem = s.mem := by
  simp [State.framesStage, foldl_mem]

@[simp] theorem State.framesWake_keeps (s : State) (h : Memory.wf s.mem = true) :
    Memory.wf (State.framesWake s).mem = true := by
  simp +contextual [State.framesWake, h, foldl_keeps]

@[simp] theorem State.exchangePair_keeps (s : State) (i : Nat) (h : Memory.wf s.mem = true) :
    Memory.wf (State.exchangePair s i).mem = true := by
  unfold State.exchangePair; repeat' split
  all_goals simp [h]

@[simp] theorem State.activationDone_mem (s : State) (kind : Nat) (index : Nat) :
    (State.activationDone s kind index).mem = s.mem := by
  unfold State.activationDone; (try dsimp only); repeat' split
  all_goals simp [*]

end Sys2Proof.Machine
end

