-- ==== Sys2Proof/Laws/KeepManager.lean ====
section
/-! SUPPORT. What the classifier, the manager's commands and SRTP may do to memory: leave it, or keep its canonical form. -/
namespace Sys2Proof.Machine

@[simp] theorem State.startRekeyAt_mem (s : State) (o : Origin) (asked : Bool) (n : Nat) :
    (State.startRekeyAt s o asked n).mem = s.mem := by
  unfold State.startRekeyAt; (try dsimp only); repeat' split
  all_goals simp [*, foldl_mem]

@[simp] theorem State.startRekey_mem (s : State) (o : Origin) :
    (State.startRekey s o).mem = s.mem := by
  unfold State.startRekey; (try dsimp only); repeat' split
  all_goals simp [*, foldl_mem]

theorem State.insertKey_some_mem {s u : State} {t : Nat} {x : KeySlot} (h : s.insertKey t x = some u) : u.mem = s.mem := by
  unfold State.insertKey at h
  repeat' split at h
  all_goals cases h; try rfl

@[simp] theorem State.insertKey_getD_mem (s : State) (t : Nat) (x : KeySlot) : ((s.insertKey t x).getD s).mem = s.mem := by
  generalize hq : s.insertKey t x = q
  cases q with
  | none => rfl
  | some u => exact State.insertKey_some_mem hq

theorem State.insertKeys_some_mem {t : Nat} (l : List KeySlot) {s u : State} (h : s.insertKeys t l = some u) : u.mem = s.mem := by
  induction l generalizing s with
  | nil => cases h; rfl
  | cons x l ih =>
    unfold State.insertKeys at h
    split at h
    · rename_i hv; rw [ih h, State.insertKey_some_mem hv]
    · cases h

theorem State.refilled_some_mem {s u : State} (h : s.refilled = some u) : u.mem = s.mem := by
  unfold State.refilled at h
  exact (State.insertKeys_some_mem _ h).trans rfl

@[simp] theorem State.finishRekey_mem (s : State) (o : Origin) :
    (State.finishRekey s o).mem = s.mem := by
  unfold State.finishRekey; split
  · rename_i h; rw [← State.refilled_some_mem h]; simp
  · rfl

@[simp] theorem createAs_mem (e : Entry) (s : State) :
    (createAs e s).s.mem = s.mem := by
  simp [createAs]

@[simp] theorem createBody_mem (e : Entry) (s : State) :
    (createBody e s).s.mem = s.mem := by
  unfold createBody; (try dsimp only); repeat' split
  all_goals simp [*]

@[simp] theorem State.supersede_mem (s : State) (n : Nat) (k : Nat) (o : Origin) :
    (State.supersede s n k o).mem = s.mem := by
  unfold State.supersede; repeat' split
  all_goals simp

@[simp] theorem State.changeShare_mem (s : State) (n : Nat) (k : Nat) (v : Nat) (tag : Word) (waits : Bool) (o : Origin) :
    (State.changeShare s n k v tag waits o).mem = s.mem := by
  simp [State.changeShare]

@[simp] theorem setShareAs_mem (e : Entry) (waits : Nat) (o : Origin) (s : State) :
    (setShareAs e waits o s).s.mem = s.mem := by
  simp [setShareAs, foldl_mem]

@[simp] theorem setShareBody_mem (e : Entry) (s : State) :
    (setShareBody e s).s.mem = s.mem := by
  unfold setShareBody; (try dsimp only); repeat' split
  all_goals simp [*, foldl_mem]

@[simp] theorem State.dropBe_mem (s : State) (j : BeJob) :
    (State.dropBe s j).mem = s.mem := by
  unfold State.dropBe; (try dsimp only); repeat' split
  all_goals simp [*]

@[simp] theorem State.beginQuiesce_mem (s : State) (n : Nat) :
    (State.beginQuiesce s n).mem = s.mem := by
  simp [State.beginQuiesce, foldl_mem]

@[simp] theorem quiesceBody_mem (e : Entry) (s : State) :
    (quiesceBody e s).s.mem = s.mem := by
  unfold quiesceBody; (try dsimp only); repeat' split
  all_goals simp [*]

@[simp] theorem State.removeObjects_mem (s : State) (n : Nat) :
    (State.removeObjects s n).mem = s.mem := by
  simp [State.removeObjects, foldl_mem]

@[simp] theorem resetBody_mem (e : Entry) (s : State) :
    (resetBody e s).s.mem = s.mem := by
  unfold resetBody; (try dsimp only); repeat' split
  all_goals simp [*]

@[simp] theorem removeBody_mem (e : Entry) (s : State) :
    (removeBody e s).s.mem = s.mem := by
  unfold removeBody; (try dsimp only); repeat' split
  all_goals simp [*]

@[simp] theorem setPasidBody_mem (e : Entry) (s : State) :
    (setPasidBody e s).s.mem = s.mem := by
  unfold setPasidBody; (try dsimp only); repeat' split
  all_goals simp [*]

@[simp] theorem logStartBody_mem (e : Entry) (s : State) :
    (logStartBody e s).s.mem = s.mem := by
  unfold logStartBody; (try dsimp only); repeat' split
  all_goals simp [*]

@[simp] theorem logSwapBody_mem (e : Entry) (s : State) :
    (logSwapBody e s).s.mem = s.mem := by
  unfold logSwapBody; (try dsimp only); repeat' split
  all_goals simp [*]

@[simp] theorem logStopBody_mem (e : Entry) (s : State) :
    (logStopBody e s).s.mem = s.mem := by
  unfold logStopBody; (try dsimp only); repeat' split
  all_goals simp [*]

@[simp] theorem frameDrainAs_mem (e : Entry) (o : Origin) (words : Option (Nat × Nat)) (s : State) :
    (frameDrainAs e o words s).s.mem = s.mem := by
  unfold frameDrainAs; (try dsimp only); repeat' split
  all_goals simp [*]

@[simp] theorem frameDrainBody_mem (e : Entry) (s : State) :
    (frameDrainBody e s).s.mem = s.mem := by
  unfold frameDrainBody; (try dsimp only); repeat' split
  all_goals simp [*]

@[simp] theorem frameReturnBody_mem (e : Entry) (s : State) :
    (frameReturnBody e s).s.mem = s.mem := by
  unfold frameReturnBody; (try dsimp only); repeat' split
  all_goals simp [*]

@[simp] theorem rekeyBody_mem (s : State) :
    (rekeyBody s).s.mem = s.mem := by
  unfold rekeyBody; (try dsimp only); repeat' split
  all_goals simp [*, foldl_mem]

@[simp] theorem State.setStaged_mem (s : State) (v : Nat) :
    (State.setStaged s v).mem = s.mem := by
  rfl

@[simp] theorem Ans.stage_mem (a : Ans) (same : Bool) : (a.stage same).s.mem = a.s.mem := by
  unfold Ans.stage; split <;> simp

@[simp] theorem stageBeginBody_mem (e : Entry) (s : State) :
    (stageBeginBody e s).s.mem = s.mem := by
  unfold stageBeginBody; repeat' split
  all_goals simp

@[simp] theorem stageWriteBody_mem (e : Entry) (source : HostRead (List Byte)) (s : State) :
    (stageWriteBody e source s).s.mem = s.mem := by
  unfold stageWriteBody; (try dsimp only); repeat' split
  all_goals first
    | rfl
    | (refine State.reading_mem _ _ _ _ _ _ _ (fun _ _ => rfl) (fun _ _ => ?_); (try dsimp only); (repeat' split) <;> simp)

@[simp] theorem stageVerifyBody_mem (e : Entry) (s : State) :
    (stageVerifyBody e s).s.mem = s.mem := by
  unfold stageVerifyBody; (try dsimp only); repeat' split
  all_goals simp [*]

@[simp] theorem activateBody_keeps (e : Entry) (s : State) (h : Memory.wf s.mem = true) :
    Memory.wf (activateBody e s).s.mem = true := by
  unfold activateBody; (try dsimp only); repeat' split
  all_goals simp (maxDischargeDepth := 12) +contextual [*, foldl_keeps, foldl_mem]

@[simp] theorem activateCommitBody_mem (e : Entry) (s : State) :
    (activateCommitBody e s).s.mem = s.mem := by
  unfold activateCommitBody; (try dsimp only); repeat' split
  all_goals simp [*]

@[simp] theorem activateConfirmBody_mem (e : Entry) (s : State) :
    (activateConfirmBody e s).s.mem = s.mem := by
  unfold activateConfirmBody; repeat' split
  all_goals simp

@[simp] theorem journalReadBody_mem (e : Entry) (s : State) :
    (journalReadBody e s).s.mem = s.mem := by
  unfold journalReadBody; (try dsimp only); repeat' split
  all_goals simp [*]

@[simp] theorem ledgerSetBody_mem (e : Entry) (s : State) :
    (ledgerSetBody e s).s.mem = s.mem := by
  unfold ledgerSetBody; (try dsimp only); repeat' split
  all_goals simp [*]

@[simp] theorem ledgerDisableBody_mem (e : Entry) (s : State) :
    (ledgerDisableBody e s).s.mem = s.mem := by
  unfold ledgerDisableBody; repeat' split
  all_goals simp

@[simp] theorem ledgerSeedBody_mem (e : Entry) (block : HostRead (List Word)) (s : State) :
    (ledgerSeedBody e block s).s.mem = s.mem := by
  unfold ledgerSeedBody; (try dsimp only); repeat' split
  all_goals first
    | rfl
    | (refine State.reading_mem _ _ _ _ _ _ _ (fun _ _ => rfl) (fun _ _ => ?_); (try dsimp only); (repeat' split) <;> simp)

@[simp] theorem snapshotBody_mem (e : Entry) (s : State) :
    (snapshotBody e s).s.mem = s.mem := by
  unfold snapshotBody; repeat' split
  all_goals simp

@[simp] theorem twinSwitchBody_mem (s : State) :
    (twinSwitchBody s).s.mem = s.mem := by
  unfold twinSwitchBody; repeat' split
  all_goals simp

@[simp] theorem State.discardObjects_mem (s : State) :
    (State.discardObjects s).mem = s.mem := by
  rfl

@[simp] theorem State.enterSyncing_mem (s : State) :
    (State.enterSyncing s).mem = s.mem := by
  simp [State.enterSyncing]

@[simp] theorem twinResyncBody_mem (s : State) :
    (twinResyncBody s).s.mem = s.mem := by
  unfold twinResyncBody; repeat' split
  all_goals simp

@[simp] theorem powerFullBody_mem (e : Entry) (s : State) :
    (powerFullBody e s).s.mem = s.mem := by
  unfold powerFullBody; (try dsimp only); repeat' split
  all_goals simp [*, foldl_mem]

@[simp] theorem powerParkBody_mem (e : Entry) (s : State) :
    (powerParkBody e s).s.mem = s.mem := by
  unfold powerParkBody; repeat' split
  all_goals simp

@[simp] theorem State.flushJournal_mem (s : State) (n : Nat) : (s.flushJournal n).mem = s.mem := by
  induction n generalizing s with
  | zero => rfl
  | succ n ih => unfold State.flushJournal; split <;> simp [ih]

@[simp] theorem State.flushRecords_mem (s : State) (n : Nat) : (s.flushRecords n).mem = s.mem := by
  induction n generalizing s with
  | zero => rfl
  | succ n ih => simp [State.flushRecords, ih]

@[simp] theorem State.suspendLedgers_mem (s : State) :
    (State.suspendLedgers s).mem = s.mem := by
  simp [State.suspendLedgers, foldl_mem]

@[simp] theorem State.discard_mem (s : State) (y : Why) (n : Nat) (t : Nat) :
    (State.discard s y n t).mem = s.mem := by
  simp [State.discard]

@[simp] theorem State.setCtx_mem (s : State) (c : Nat) (x : Srtp) :
    (State.setCtx s c x).mem = s.mem := by
  rfl

@[simp] theorem State.keyExpired_mem (s : State) (stream : Nat) (c : Nat) (leg : Bool) (tx : Bool) (next : Bool) (rtcp : Bool) (k : SrtpKey) :
    (State.keyExpired s stream c leg tx next rtcp k).mem = s.mem := by
  simp [State.keyExpired]

@[simp] theorem State.unprotect_mem (s : State) (stream : Nat) (leg : Bool) (rtcp : Bool) (p : List Byte) (t : Nat) :
    (State.unprotect s stream leg rtcp p t).1.mem = s.mem := by
  unfold State.unprotect; (try dsimp only); repeat' split
  all_goals simp [*]

@[simp] theorem State.protect_mem (s : State) (stream : Nat) (leg : Bool) (rtcp : Bool) (seq : Nat) (p : List Byte) (t : Nat) :
    (State.protect s stream leg rtcp seq p t).1.mem = s.mem := by
  unfold State.protect; (try dsimp only); repeat' split
  all_goals simp [*]

@[simp] theorem State.protectIf_mem (s : State) (stream : Nat) (leg : Bool) (rtcp : Bool) (seq : Nat) (p : List Byte) (t : Nat) :
    (State.protectIf s stream leg rtcp seq p t).1.mem = s.mem := by
  simp [State.protectIf]

end Sys2Proof.Machine
end

