-- ==== Sys2Proof/Laws/KeepChannel.lean ====
section
/-! SUPPORT. What the channel commands and the gatehouse, with its arrivals and departures, may do to memory: keep its canonical form. -/
namespace Sys2Proof.Machine

@[simp] theorem programRegisterBody_keeps (e : Entry) (image : HostRead (List Word)) (s : State) (h : Memory.wf s.mem = true) :
    Memory.wf (programRegisterBody e image s).s.mem = true := by
  unfold programRegisterBody; (try dsimp only); repeat' split
  all_goals first
    | exact h
    | (refine State.reading_keeps _ _ _ _ _ _ _ (fun _ _ => rfl) (fun ws u hu => ?_) h; exact writeMem_wf _ _ _ (by simpa using hu))

@[simp] theorem programRemoveBody_mem (e : Entry) (s : State) :
    (programRemoveBody e s).s.mem = s.mem := by
  unfold programRemoveBody; (try dsimp only); repeat' split
  all_goals simp [*]

@[simp] theorem State.withOpen_mem (s : State) (i : Nat) (c : Nat) (x : Stream) (k : Coach) :
    (State.withOpen s i c x k).mem = s.mem := by
  rfl

@[simp] theorem State.stashFull_mem (s : State) :
    (State.stashFull s).s.mem = s.mem := by
  simp [State.stashFull]

@[simp] theorem State.homeBoards_mem (s : State) (c : Nat) (f : Nat) (bs : List Nat) :
    (State.homeBoards s c f bs).mem = s.mem := by
  unfold State.homeBoards
  refine foldl_mem _ (fun s x => ?_) _ _
  dsimp only
  repeat' split
  all_goals simp

theorem State.openKeys_mem {i : Nat} {l : List (ClassKey × Bool)} : ∀ {s t : State}, s.openKeys i l = some t → t.mem = s.mem := by
  induction l with
  | nil => intro s t h; cases h; rfl
  | cons k l ih =>
    intro s t h
    unfold State.openKeys at h
    split at h
    · next u hu => rw [ih h, State.insertKey_some_mem hu]
    · cases h

theorem State.openCommit_keeps (s t : State) (n i c g : Nat) (r : OpenReq) (b init : List Word)
    (h : Memory.wf s.mem = true) (ht : Memory.wf t.mem = true) :
    Memory.wf (State.openCommit s t n i c g r b init).s.mem = true := by
  unfold State.openCommit
  split
  · simp [h]
  · next u hu =>
    have hw : Memory.wf u.mem = true := by rw [State.openKeys_mem hu]; exact ht
    dsimp only
    generalize hv : ({ u with gh := _ } : State) = v
    replace hw : Memory.wf v.mem = true := by rw [← hv]; exact hw
    cases r.coached
    · simpa using hw
    · simp only [Ans.ok, State.count_mem, State.drawn_mem, if_true]
      exact foldl_keeps _ (fun t m ht => writeMem_wf _ _ _ ht) _ _ hw

@[simp] theorem State.openApply_keeps (s : State) (n : Nat) (i : Nat) (c : Nat) (g : Nat) (rk : Nat) (r : OpenReq) (b : List Word) (template : List Word) (init : List Word) (k : Coach) (h : Memory.wf s.mem = true) :
    Memory.wf (State.openApply s n i c g rk r b template init k).s.mem = true := by
  unfold State.openApply
  exact State.openCommit_keeps _ _ _ _ _ _ _ _ _ h (by rw [State.homeBoards_mem]; exact h)

@[simp] theorem State.openAdmit_keeps (s : State) (n : Nat) (r : OpenReq) (b template init : List Word) (h : Memory.wf s.mem = true) :
    Memory.wf (State.openAdmit s n r b template init).s.mem = true := by
  unfold State.openAdmit
  dsimp only
  refine iteInduction (motive := fun a : Ans => Memory.wf a.s.mem = true) (fun _ => ?_) (fun _ => ?_)
  · refine iteInduction (motive := fun a : Ans => Memory.wf a.s.mem = true) (fun _ => h) (fun _ => ?_)
    generalize State.overCeiling _ n r.contexts true = d
    cases d
    · exact State.openCommit_keeps _ _ _ _ _ _ _ _ _ h h
    · exact h
  refine iteInduction (motive := fun a : Ans => Memory.wf a.s.mem = true) (fun _ => h) (fun _ => ?_)
  refine iteInduction (motive := fun a : Ans => Memory.wf a.s.mem = true) (fun _ => h) (fun _ => ?_)
  generalize State.overCeiling _ n r.contexts _ = d
  cases d
  · dsimp only
    split
    · exact h
    · exact State.openApply_keeps _ _ _ _ _ _ _ _ _ _ _ h
  · exact h

/-- What a CHANNEL_OPEN reads of host memory keeps the memory's canonical form when the command that goes on with it does. -/
@[simp] theorem State.openReads_keeps (s : State) (e : Entry) (block template init : HostRead (List Word))
    (f : List Word → List Word → List Word → State → Ans)
    (hf : ∀ b t x (u : State), Memory.wf u.mem = true → Memory.wf (f b t x u).s.mem = true)
    (h : Memory.wf s.mem = true) : Memory.wf (s.openReads e block template init f).s.mem = true := by
  unfold State.openReads
  refine State.reading_keeps _ _ _ _ _ _ _ (fun _ _ => rfl) (fun b u hu => ?_) h
  refine State.reading_keeps _ _ _ _ _ _ _ (fun _ _ => rfl) (fun t u hu => ?_) hu
  split
  · exact State.reading_keeps _ _ _ _ _ _ _ (fun _ _ => rfl) (fun x u hu => hf _ _ _ _ hu) hu
  · exact hf _ _ _ _ hu

@[simp] theorem channelOpenAs_keeps (e : Entry) (block : HostRead (List Word)) (template : HostRead (List Word)) (init : HostRead (List Word)) (result : Nat) (placed : Option (Nat × Nat)) (s : State) (h : Memory.wf s.mem = true) :
    Memory.wf (channelOpenAs e block template init result placed s).s.mem = true := by
  unfold channelOpenAs
  refine State.openReads_keeps _ _ _ _ _ _ (fun b t x u hu => ?_) h
  dsimp only
  split
  · exact State.openApply_keeps _ _ _ _ _ _ _ _ _ _ _ hu
  · exact State.openCommit_keeps _ _ _ _ _ _ _ _ _ hu hu

@[simp] theorem channelOpenBody_keeps (e : Entry) (block : HostRead (List Word)) (template : HostRead (List Word)) (init : HostRead (List Word)) (s : State) (h : Memory.wf s.mem = true) :
    Memory.wf (channelOpenBody e block template init s).s.mem = true := by
  unfold channelOpenBody
  refine iteInduction (motive := fun a : Ans => Memory.wf a.s.mem = true) (fun _ => h) (fun _ => ?_)
  refine State.openReads_keeps _ _ _ _ _ _ (fun b t x u hu => ?_) h
  dsimp only
  split
  · exact hu
  · exact State.openAdmit_keeps _ _ _ _ _ _ hu

@[simp] theorem channelCloseBody_mem (e : Entry) (s : State) :
    (channelCloseBody e s).s.mem = s.mem := by
  unfold channelCloseBody; (try dsimp only); repeat' split
  all_goals simp [*]

@[simp] theorem fallbackSetBody_mem (e : Entry) (s : State) :
    (fallbackSetBody e s).s.mem = s.mem := by
  unfold fallbackSetBody; (try dsimp only); repeat' split
  all_goals simp [*]

@[simp] theorem keySetBody_mem (e : Entry) (block : HostRead (List Word)) (s : State) :
    (keySetBody e block s).s.mem = s.mem := by
  unfold keySetBody; (try dsimp only); repeat' split
  all_goals first
    | rfl
    | (refine State.reading_mem _ _ _ _ _ _ _ (fun _ _ => rfl) (fun _ _ => ?_); (try dsimp only); (repeat' split) <;> simp)

@[simp] theorem State.newBoard_mem (s : State) (n : Nat) (b : Nat) (f : Nat) (len : Nat) (code : Nat) (cnt : Word) :
    (State.newBoard s n b f len code cnt).s.mem = s.mem := by
  rfl

@[simp] theorem boardAllocBody_mem (e : Entry) (s : State) :
    (boardAllocBody e s).s.mem = s.mem := by
  unfold boardAllocBody; (try dsimp only); repeat' split
  all_goals simp [*]

@[simp] theorem boardAllocAs_mem (e : Entry) (placed : Option (Nat × Nat)) (s : State) :
    (boardAllocAs e placed s).s.mem = s.mem := by
  unfold boardAllocAs; repeat' split
  all_goals simp

@[simp] theorem State.setExpect_mem (s : State) (b : Nat) (count : Word) (g : Long) :
    (State.setExpect s b count g).mem = s.mem := by
  rfl

@[simp] theorem boardExpectAs_mem (e : Entry) (s : State) :
    (boardExpectAs e s).s.mem = s.mem := by
  rfl

@[simp] theorem boardExpectBody_mem (e : Entry) (s : State) :
    (boardExpectBody e s).s.mem = s.mem := by
  unfold boardExpectBody; (try dsimp only); repeat' split
  all_goals simp [*]

@[simp] theorem boardReleaseBody_mem (e : Entry) (s : State) :
    (boardReleaseBody e s).s.mem = s.mem := by
  unfold boardReleaseBody; (try dsimp only); repeat' split
  all_goals simp [*]

@[simp] theorem beSubmitAs_mem (e : Entry) (s : State) :
    (beSubmitAs e s).s.mem = s.mem := by
  rfl

@[simp] theorem beSubmitBody_mem (e : Entry) (s : State) :
    (beSubmitBody e s).s.mem = s.mem := by
  unfold beSubmitBody; (try dsimp only); repeat' split
  all_goals simp [*]

@[simp] theorem State.portCount1_mem (s : State) (port : Nat) (k : Nat) (n : Nat) :
    (State.portCount1 s port k n).mem = s.mem := by
  rfl

@[simp] theorem State.puntFrame_mem (s : State) (n : Nat) (p : Punt) :
    (State.puntFrame s n p).mem = s.mem := by
  simp [State.puntFrame]

@[simp] theorem State.ptpDeliver_keeps (s : State) (sender : Nat) (stamp : Nat) (data : List Word) (h : Memory.wf s.mem = true) :
    Memory.wf (State.ptpDeliver s sender stamp data).mem = true := by
  simp [State.ptpDeliver, h]

@[simp] theorem State.ptpIn_keeps (s : State) (port : Nat) (stamp : Nat) (msg : List Byte) (h : Memory.wf s.mem = true) :
    Memory.wf (State.ptpIn s port stamp msg).mem = true := by
  simp [State.ptpIn, h]

@[simp] theorem State.place__keeps (s : State) (i : Nat) (leg : Bool) (p : List Byte) (stamp : Nat) (h : Memory.wf s.mem = true) :
    Memory.wf (State.place_ s i leg p stamp).mem = true := by
  simp [State.place_, h]

@[simp] theorem State.direct_keeps (s : State) (i : Nat) (p : List Byte) (stamp : Nat) (h : Memory.wf s.mem = true) :
    Memory.wf (State.direct s i p stamp).mem = true := by
  simp [State.direct, h]

@[simp] theorem State.billRx_mem (s : State) (n : Nat) (octets : Nat) (t : Nat) :
    (State.billRx s n octets t).mem = s.mem := by
  simp [State.billRx]

@[simp] theorem State.handle_keeps (s : State) (m : MediaIn) (h : Memory.wf s.mem = true) :
    Memory.wf (State.handle s m).mem = true := by
  unfold State.handle; (try dsimp only); repeat' split
  all_goals simp [*]

@[simp] theorem State.police_mem (s : State) (i : Nat) (leg : Bool) (egress : Bool) (g : Nat) :
    (State.police s i leg egress g).1.mem = s.mem := by
  rfl

@[simp] theorem State.hold_mem (s : State) (m : MediaIn) :
    (State.hold s m).mem = s.mem := by
  rfl

@[simp] theorem State.sendCut_mem (s : State) :
    (State.sendCut s).mem = s.mem := by
  simp [State.sendCut]

@[simp] theorem State.cutsUpTo_mem (s : State) (t : Nat) :
    (State.cutsUpTo s t).mem = s.mem := by
  simp [State.cutsUpTo, foldl_mem]

@[simp] theorem State.forward_mem (s : State) (m : MediaIn) :
    (State.forward s m).mem = s.mem := by
  simp [State.forward]

@[simp] theorem State.mediaIn_keeps (s : State) (m : MediaIn) (ovr : Bool) (h : Memory.wf s.mem = true) :
    Memory.wf (State.mediaIn s m ovr).mem = true := by
  simp [State.mediaIn, h]

@[simp] theorem State.puntOwn_mem (s : State) (n : Nat) (octets : Nat) (p : Punt) :
    (State.puntOwn s n octets p).mem = s.mem := by
  simp [State.puntOwn]

@[simp] theorem State.fragMedia_mem (s : State) (n : Nat) :
    (State.fragMedia s n).mem = s.mem := by
  rfl

@[simp] theorem State.fragJoin_mem (s : State) (ip : Ip) (others : List Reasm) (r : Reasm) (stamp : Nat) :
    (State.fragJoin s ip others r stamp).mem = s.mem := by
  unfold State.fragJoin; dsimp only; repeat' split
  all_goals simp

@[simp] theorem State.fragment_mem (s : State) (port : Nat) (o : List Byte) (ip : Ip) (f : Frag) (stamp : Nat) (octets : Nat) :
    (State.fragment s port o ip f stamp octets).mem = s.mem := by
  unfold State.fragment; dsimp only
  refine iteInduction (motive := fun u : State => u.mem = s.mem) (fun _ => ?_) (fun _ => ?_)
  · simp
  refine iteInduction (motive := fun u : State => u.mem = s.mem) (fun _ => ?_) (fun _ => ?_)
  · simp
  refine iteInduction (motive := fun u : State => u.mem = s.mem) (fun _ => ?_) (fun _ => ?_) <;> simp

@[simp] theorem State.fragExpire_mem (s : State) :
    (State.fragExpire s).mem = s.mem := by
  simp [State.fragExpire, foldl_mem]

@[simp] theorem State.dispose_keeps (s : State) (port : Nat) (o : List Byte) (stamp : Nat) (sfd : Nat) (octets : Nat) (ovr : Bool) (h : Memory.wf s.mem = true) :
    Memory.wf (State.dispose s port o stamp sfd octets ovr).mem = true := by
  unfold State.dispose; (try dsimp only); repeat' split
  all_goals simp [*]

@[simp] theorem State.frameIn_keeps (s : State) (port : Nat) (o : List Byte) (ovr : Bool) (h : Memory.wf s.mem = true) :
    Memory.wf (State.frameIn s port o ovr).mem = true := by
  unfold State.frameIn; (try dsimp only); repeat' split
  all_goals simp [*]

@[simp] theorem State.buildFrame_mem (s : State) (d : Dep) :
    (State.buildFrame s d).1.mem = s.mem := by
  unfold State.buildFrame; (try dsimp only); repeat' split
  all_goals simp [*]

@[simp] theorem State.depFrame_mem (s : State) (d : Dep) :
    (State.depFrame s d).1.mem = s.mem := by
  unfold State.depFrame; (try dsimp only); repeat' split
  all_goals simp [*]

@[simp] theorem State.ptpOut_keeps (s : State) (port : Nat) (o : List Byte) (t : Nat) (h : Memory.wf s.mem = true) :
    Memory.wf (State.ptpOut s port o t).1.mem = true := by
  unfold State.ptpOut; repeat' split
  all_goals simp [h]

@[simp] theorem State.sendReady_keeps (s : State) (r : Ready) (h : Memory.wf s.mem = true) :
    Memory.wf (State.sendReady s r).mem = true := by
  simp [State.sendReady, h]

@[simp] theorem State.runPort_keeps (s : State) (port : Nat) (h : Memory.wf s.mem = true) :
    Memory.wf (State.runPort s port).mem = true := by
  unfold State.runPort; repeat' split
  all_goals simp [h]

@[simp] theorem State.release_keeps (s : State) (d : Dep) (h : Memory.wf s.mem = true) :
    Memory.wf (State.release s d).mem = true := by
  unfold State.release; (try dsimp only); repeat' split
  all_goals simp [*]

@[simp] theorem State.boardAdd_mem (s : State) (d : Dep) :
    (State.boardAdd s d).mem = s.mem := by
  simp [State.boardAdd]

@[simp] theorem State.looseEntry_mem (s : State) (n : Nat) (w : List Word) :
    (State.looseEntry s n w).mem = s.mem := by
  simp [State.looseEntry]

@[simp] theorem State.listEntry_mem (s : State) (k : Coach) (g : Nat) (w : List Word) :
    (State.listEntry s k g w).mem = s.mem := by
  simp [State.listEntry]

@[simp] theorem State.formDigest_mem (s : State) (c : Nat) (g : Nat) (l : List Dep) :
    (State.formDigest s c g l).mem = s.mem := by
  simp [State.formDigest]

@[simp] theorem State.listArrive_mem (s : State) (c : Nat) (g : Nat) (l : List (List Word)) :
    (State.listArrive s c g l).mem = s.mem := by
  simp [State.listArrive, foldl_mem]

@[simp] theorem State.moveAnchors_mem (s : State) (c : Nat) (anchors : List (Nat × Long × Long)) :
    (State.moveAnchors s c anchors).mem = s.mem := by
  simp [State.moveAnchors, foldl_mem]

@[simp] theorem sendFrameBody_mem (e : Entry) (frame : HostRead (List Byte)) (s : State) :
    (sendFrameBody e frame s).s.mem = s.mem := by
  unfold sendFrameBody; (try dsimp only); repeat' split
  all_goals first
    | rfl
    | (refine State.reading_mem _ _ _ _ _ _ _ (fun _ _ => rfl) (fun _ _ => ?_); (try dsimp only); (repeat' split) <;> simp)

@[simp] theorem State.groupBad_keeps (s : State) (pa : Nat) (free : Bool) (h : Memory.wf s.mem = true) :
    Memory.wf (State.groupBad s pa free).mem = true := by
  unfold State.groupBad; (try dsimp only); repeat' split
  all_goals simp [*]

@[simp] theorem State.dramChecked_keeps (s : State) (a : Nat) (found : Finding) (free : Bool) (h : Memory.wf s.mem = true) :
    Memory.wf (State.dramChecked s a found free).mem = true := by
  unfold State.dramChecked; repeat' split
  all_goals simp [h]

@[simp] theorem State.recordCorrected_mem (s : State) (unit : Nat) (source : Nat) (pa : Nat) :
    (State.recordCorrected s unit source pa).mem = s.mem := by
  simp [State.recordCorrected]

@[simp] theorem State.wordChecked_keeps (s : State) (a : Nat) (found : Finding) (free : Bool) (h : Memory.wf s.mem = true) :
    Memory.wf (State.wordChecked s a found free).mem = true := by
  unfold State.wordChecked; repeat' split
  all_goals simp [h]

@[simp] theorem State.bankChecked_mem (s : State) (board : Nat) (odd : Bool) (blk : Nat) (found : Finding) :
    (State.bankChecked s board odd blk found).mem = s.mem := by
  unfold State.bankChecked; repeat' split
  all_goals simp

@[simp] theorem State.dlineChecked_mem (s : State) (e : EngId) (pa : Nat) (found : Finding) :
    (State.dlineChecked s e pa found).mem = s.mem := by
  unfold State.dlineChecked; (try dsimp only); repeat' split
  all_goals simp [*]

@[simp] theorem State.ilineChecked_mem (s : State) (e : EngId) (line : Nat) (found : Finding) :
    (State.ilineChecked s e line found).mem = s.mem := by
  simp [State.ilineChecked]

@[simp] theorem State.parityError_keeps (s : State) (e : EngId) (h : Memory.wf s.mem = true) :
    Memory.wf (State.parityError s e).mem = true := by
  simp [State.parityError, h]

@[simp] theorem State.journalLost_mem (s : State) (i : Nat) :
    (State.journalLost s i).mem = s.mem := by
  simp [State.journalLost]

end Sys2Proof.Machine
end

