-- ==== Sys2Proof/Laws/KeepPairing.lean ====
section
/-! SUPPORT. What pairing, the debug port, the scans and the clock may do to memory: keep its canonical form. -/
namespace Sys2Proof.Machine

@[simp] theorem State.debugReply_mem (s : State) (st : DbgStatus) (data : List Word) :
    (State.debugReply s st data).mem = s.mem := by
  rfl

@[simp] theorem State.debugAwait_mem (s : State) (e : EngId) :
    (State.debugAwait s e).mem = s.mem := by
  rfl

@[simp] theorem State.debugWrite_mem (s : State) (where_ : Word) (count : Nat) :
    (State.debugWrite s where_ count).mem = s.mem := by
  simp [State.debugWrite]

@[simp] theorem dbgRead_mem (l : List Nat) (h : List Word) (s : State) : (dbgRead l h s).2.mem = s.mem := by
  induction l generalizing h s with
  | nil => rfl
  | cons pa l ih =>
    unfold dbgRead
    split <;> simp [ih]

@[simp] theorem dbgStore_keeps (l : List (Nat × Word)) (s : State) (h : Memory.wf s.mem = true) :
    Memory.wf (dbgStore l s).mem = true := by
  unfold dbgStore
  exact List.foldlRecOn (motive := fun m => Memory.wf m = true) _ _ h fun m hm _ _ => setWord_wf m _ _ hm

@[simp] theorem State.uncheckWord_mem (s : State) (pa : Nat) :
    (State.uncheckWord s pa).mem = s.mem := by
  unfold State.uncheckWord; repeat' split
  all_goals simp

@[simp] theorem State.functionReset_mem (s : State) :
    (State.functionReset s).mem = s.mem := by
  simp [State.functionReset]

@[simp] theorem State.hostReset_mem (s : State) (how : Word) :
    (State.hostReset s how).mem = s.mem := by
  simp [State.hostReset]

@[simp] theorem State.hostResumed_mem (s : State) :
    (State.hostResumed s).mem = s.mem := by
  simp [State.hostResumed, foldl_mem]

@[simp] theorem State.configWrite_mem (s : State) (dword : Nat) (w : Long) :
    (State.configWrite s dword w).mem = s.mem := by
  simp [State.configWrite]

@[simp] theorem State.heard_mem (s : State) :
    (State.heard s).mem = s.mem := by
  rfl

@[simp] theorem State.refusePair_mem (s : State) (r : Nat) :
    (State.refusePair s r).mem = s.mem := by
  rfl

@[simp] theorem State.evalPairing_mem (s : State) (x : Hello) :
    (State.evalPairing s x).mem = s.mem := by
  unfold State.evalPairing; repeat' split
  all_goals simp

@[simp] theorem State.sendState_mem (s : State) (x : StateObj) :
    (State.sendState s x).mem = s.mem := by
  simp [State.sendState]

@[simp] theorem State.serveResync_mem (s : State) :
    (State.serveResync s).mem = s.mem := by
  simp [State.serveResync, foldl_mem]

@[simp] theorem State.install_keeps (s : State) (x : StateObj) (h : Memory.wf s.mem = true) :
    Memory.wf (State.install s x).mem = true := by
  unfold State.install; repeat' split
  all_goals simp [h]

@[simp] theorem State.twinLost_mem (s : State) (f : Nat) :
    (State.twinLost s f).mem = s.mem := by
  simp [State.twinLost, foldl_mem]

@[simp] theorem State.aloneCheck_mem (s : State) :
    (State.aloneCheck s).mem = s.mem := by
  simp [State.aloneCheck]

@[simp] theorem State.handoverOff_mem (s : State) :
    (State.handoverOff s).mem = s.mem := by
  unfold State.handoverOff; (try dsimp only); repeat' split
  all_goals simp [*]

@[simp] theorem State.peerGone_mem (s : State) :
    (State.peerGone s).mem = s.mem := by
  unfold State.peerGone; (try dsimp only); repeat' split
  all_goals simp [*]

@[simp] theorem State.lanesCheck_mem (s : State) :
    (State.lanesCheck s).mem = s.mem := by
  simp [State.lanesCheck]

@[simp] theorem hostReg_keeps (off : Nat) (w : Word) (s : State) (h : Memory.wf s.mem = true) :
    Memory.wf (hostReg off w s).mem = true := by
  simp [hostReg, h]

@[simp] theorem State.loadScan_mem (s : State) (i : ScanInstr) (takes : Bool) :
    (State.loadScan s i takes).mem = s.mem := by
  simp [State.loadScan]

@[simp] theorem State.scanBoundary_mem (s : State) (levels : List Bool) (shiftIn : List Bool) :
    (State.scanBoundary s levels shiftIn).mem = s.mem := by
  rfl

@[simp] theorem mirrorBody_keeps (c : Commit) (s : State) (h : Memory.wf s.mem = true) :
    Memory.wf (mirrorBody c s).s.mem = true := by
  unfold mirrorBody; (try dsimp only); repeat' split
  all_goals simp [*]

@[simp] theorem State.lateFor_mem (s : State) (effect : Option Nat) :
    (State.lateFor s effect).mem = s.mem := by
  unfold State.lateFor; repeat' split
  all_goals simp

@[simp] theorem State.commitAns_keeps (s : State) (c : Commit) (h : Memory.wf s.mem = true) :
    Memory.wf (State.commitAns s c).s.mem = true := by
  unfold State.commitAns
  split
  · exact mirrorBody_keeps c _ h
  all_goals simpa using h

@[simp] theorem State.applyDecision_keeps (s : State) (d : Decision) (state : Addr) (depart : Addr) (h : Memory.wf s.mem = true) :
    Memory.wf (State.applyDecision s d state depart).mem = true := by
  unfold State.applyDecision; repeat' split
  all_goals simp [h]

@[simp] theorem State.applyCut_mem (s : State) (i : Nat) :
    (State.applyCut s i).mem = s.mem := by
  simp [State.applyCut, foldl_mem]

@[simp] theorem State.ownTime_mem (s : State) :
    (State.ownTime s).mem = s.mem := by
  simp [State.ownTime]

@[simp] theorem State.yielded_mem (s : State) :
    (State.yielded s).mem = s.mem := by
  unfold State.yielded; (try dsimp only); repeat' split
  all_goals simp [*]

@[simp] theorem State.tookOver_mem (s : State) :
    (State.tookOver s).mem = s.mem := by
  simp [State.tookOver]

@[simp] theorem State.useStandby_keeps (s : State) (x : Standby) (h : Memory.wf s.mem = true) :
    Memory.wf (State.useStandby s x).mem = true := by
  simp [State.useStandby, h]

theorem State.useHeld_keeps (b : Bool) (l : List Standby) (s : State) (h : Memory.wf s.mem = true) :
    Memory.wf (if b = true then l.foldl (fun s x => s.useStandby x) s else s).mem = true := by
  cases b
  · exact h
  · exact foldl_keeps _ (fun s x hs => State.useStandby_keeps s x hs) _ _ h

@[simp] theorem State.takeOver_keeps (s : State) (h : Memory.wf s.mem = true) : Memory.wf s.takeOver.mem = true := by
  unfold State.takeOver
  split
  next t u hr =>
  have hu : u.mem = s.mem := by rw [← State.readTime_mem s, hr]
  extract_lets s₁ s₂ held g s₃ w s₄ s₅
  have h₁ : s₁.mem = s.mem := by simp only [s₁, State.setRole_mem, State.setRegs_mem, hu]
  have h₂ : s₂.mem = s₁.mem := by simp only [s₂, State.deviceEvent_mem, State.journalBit_mem, State.setBit_mem]
  have h₄ : Memory.wf s₄.mem = true := by show Memory.wf s₂.mem = true; rw [h₂, h₁]; exact h
  have h₅ : Memory.wf s₅.mem = true := State.useHeld_keeps _ _ _ h₄
  rw [State.ownTime_mem, State.notice_mem, State.rewriteCpls_mem]
  exact h₅

end Sys2Proof.Machine
end

