-- ==== Sys2Proof/WellFormed.lean ====
section
/-! DEFINITION. Well-formed commands: what the operand types do not say by themselves. The meanings are total, and give an ill-formed
command the effect its words happen to have; a sender that keeps to the spec sends none. -/
namespace Sys2Proof

/-- Why a command is ill-formed. -/
inductive Ill where
  /-- A command entry of more than 32 words (R296). -/
  | entry
  /-- A delivery of more than 120 words (R113). -/
  | delivery
  /-- An encoding that revision 1.0 defines, given as a reserved one (R131). -/
  | encoding
  /-- A coach number of 65,536 or more (R258). -/
  | coach
  /-- An instance number of 512 or more (R291). -/
  | instanceNumber
  /-- A departure entry of other than 16 words (R246). -/
  | list
  /-- Readings of other than 24 frames' pace and 32 sensors (R400, R404). -/
  | readings
  /-- A performance counter of 4,096 or more (R358). -/
  | counter
  /-- A register offset outside the register space of BAR0 and BAR2 (R288, R294, R481). -/
  | offset
  /-- A request of no octet, of more than 8, or outside BAR0 and BAR2 (R288, R289, R294). -/
  | request
  /-- Data whose number of words a 16-bit count does not give (R467). -/
  | count
  /-- Device time that 96 bits do not hold (R319). -/
  | time
  /-- An MSEQ that 32 bits do not hold (R371). -/
  | mseq
  /-- A piece that is not of kinds 1 to 8 with index 0 to 63 (R427, R481). -/
  | piece
  /-- A PASID that 20 bits do not hold (R285). -/
  | pasid
  /-- A boundary-scan register shifted in and levels captured of different lengths (R480). -/
  | scan
  /-- An opcode that a command has, given as a reserved one (R303, R305, R308). -/
  | opcode
  /-- A stream index of 262,144 or more (R232). -/
  | stream
  deriving DecidableEq, Repr

/-- The opcodes of the manager's and the instances' commands (R303, R305). -/
def commandOpcodes : List Nat :=
  [0x01, 0x02, 0x03, 0x04, 0x05, 0x06, 0x08, 0x09, 0x0A, 0x0C, 0x0D, 0x0E, 0x10, 0x11, 0x12, 0x14, 0x15, 0x18, 0x19, 0x1C,
   0x40, 0x41, 0x44, 0x45, 0x46, 0x48, 0x49, 0x4C, 0x4D, 0x4E, 0x50, 0x51]

/-- A check that fails names what is wrong. -/
def Ill.unless (x : Ill) (ok : Bool) : Option Ill := if ok then none else some x

/-- The entry of a manager's or an instance's command, where the command has one. -/
def Instr.entry? : Instr → Option Entry
  | .instanceCreate e | .instanceSetShare e | .instanceQuiesce e | .instanceReset e | .instanceRemove e | .instanceSetPasid e
  | .dirtyLogStart e | .dirtyLogSwap e | .dirtyLogStop e | .frameDrain e | .frameReturn e | .classRekey e
  | .pieceStageWrite e _ _ | .pieceStageVerify e _ | .pieceActivate e | .pieceActivateCommit e | .pieceActivateConfirm e
  | .journalRead e | .ledgerRingSet e | .ledgerRingDisable e | .ledgerRingSeed e _ | .snapshot e | .twinSwitch e | .twinResync e
  | .powerStateFull e | .powerStatePark e | .powerStateNight e | .programRegister e _ | .programRemove e | .channelOpen e _ _ _
  | .channelClose e | .fallbackSet e | .keySet e _ | .streamSync e | .boardAlloc e | .boardExpect e | .boardRelease e | .beSubmit e
  | .sendFrame e _ | .reservedCommand e _ => some e
  | .commit c => some c.entry
  | .pieceStageBegin x => some x.entry
  | _ => none

/-- What is wrong with a command's own operands; the types say all there is to say of those not named here. -/
def Instr.operandIll : Instr → Option Ill
  | .queueDelivery _ _ _ data => Ill.delivery.unless (decide (data.words.length ≤ 120))
  | .reservedEncoding _ w0 w1 w2 => Ill.encoding.unless (!Machine.encodingDefined w0 w1 w2)
  | .round merge => Ill.coach.unless (match merge with | none => true | some (a, b) => decide (a < 65536 ∧ b < 65536))
  | .waybillIssue c _ _ _ => Ill.coach.unless (decide (c < 65536))
  | .innkeeperPadding c => Ill.coach.unless (decide (c < 65536))
  | .coachState c _ _ => Ill.coach.unless (decide (c < 65536))
  | .departureSubmit coach n list =>
    (((Ill.coach.unless (decide (coach.getD 0 < 65536))).or (Ill.instanceNumber.unless (decide (n < 512)))).or
      (Ill.list.unless ((list.entries.getD []).all fun w => decide (w.length = 16)))).or
      (Ill.stream.unless (list.anchors.all fun a => decide (a.1 < 262144)))
  | .governorInterval paces temps _ => Ill.readings.unless (decide (paces.length = 24 ∧ temps.length = 32))
  | .counterSet _ i _ => Ill.counter.unless (decide (i < 4096))
  | .groupReadLatch _ r => Ill.request.unless (decide (1 ≤ r.octets ∧ r.octets ≤ 8 ∧ r.byte < 0x6000000))
  | .groupWrite _ off _ => Ill.offset.unless (decide (off < 0x3000000))
  | .registerWrite _ byte octets => Ill.request.unless (decide (1 ≤ octets.length ∧ octets.length ≤ 8 ∧ byte < 0x6000000))
  | .readMem _ count _ => Ill.count.unless (decide (count < 65536))
  | .writeMem _ data => Ill.count.unless (decide (data.length < 65536))
  | .beat t _ _ _ _ mseq => (Ill.time.unless (decide (t < 2 ^ 96))).or (Ill.mseq.unless (decide (mseq < 2 ^ 32)))
  | .time tx rx => Ill.time.unless (decide (tx < 2 ^ 96 ∧ rx < 2 ^ 96))
  | .frame mseq stamp _ stream _ _ =>
    ((Ill.mseq.unless (decide (mseq < 2 ^ 32))).or (Ill.time.unless (decide (stamp < 2 ^ 96)))).or
      (Ill.stream.unless (decide (stream < 262144)))
  | .commit c => (Ill.mseq.unless (decide (c.mseq < 2 ^ 32))).or (Ill.time.unless (decide (c.time < 2 ^ 96)))
  | .decision mseq _ _ _ => Ill.mseq.unless (decide (mseq < 2 ^ 32))
  | .yieldMessage mseq h => (Ill.mseq.unless (decide (mseq < 2 ^ 32))).or (Ill.time.unless (decide (h < 2 ^ 96)))
  | .stateDone mseq => Ill.mseq.unless (decide (mseq < 2 ^ 32))
  | .activation kind index => Ill.piece.unless (decide (1 ≤ kind ∧ kind ≤ 8 ∧ index < 64))
  | .atsInvalidation _ pasid _ _ => Ill.pasid.unless (decide (pasid < 2 ^ 20))
  | .samplePreload levels shiftIn => Ill.scan.unless (decide (levels.length = shiftIn.length))
  | .extest levels shiftIn => Ill.scan.unless (decide (levels.length = shiftIn.length))
  | .reservedCommand _ op => Ill.opcode.unless (!commandOpcodes.contains op.toNat)
  | _ => none

/-- What is wrong with a command, if anything. -/
def Instr.ill (i : Instr) : Option Ill :=
  match i.entry? with
  | some e => if e.args.length ≤ 29 then i.operandIll else some .entry
  | none => i.operandIll

/-- A command is well-formed where no check names a fault. -/
def Instr.wellFormed (i : Instr) : Bool := i.ill.isNone

end Sys2Proof
end

