-- ==== Sys2Proof/Tests/Slice0.lean ====
section
/-! SUPPORT. Small tests: an ill-formed command for each check of WellFormed, which the check refuses; and for each statement a state and
operands that meet its hypotheses. -/
namespace Sys2Proof.Tests
open Sys2Proof.Machine

set_option maxRecDepth 20000
set_option Elab.async false

/-! ### Ill-formed commands -/

theorem test_ill_entry : (Instr.streamSync { ring := 1, args := List.replicate 30 0#16 }).ill = some .entry := by decide +kernel
theorem test_ill_delivery : (Instr.queueDelivery 0 3 0#16 ⟨List.replicate 121 0#16, 0⟩).ill = some .delivery := by decide +kernel
theorem test_ill_encoding : (Instr.reservedEncoding 0 0#16 0#16 0#16).ill = some .encoding := by decide +kernel
theorem test_ill_coach : (Instr.innkeeperPadding 65536).ill = some .coach := by decide +kernel
theorem test_ill_instance : (Instr.departureSubmit none 512 ⟨none, []⟩).ill = some .instanceNumber := by decide +kernel
theorem test_ill_list : (Instr.departureSubmit none 1 ⟨some [[0#16]], []⟩).ill = some .list := by decide +kernel
theorem test_ill_readings : (Instr.governorInterval [] [] true).ill = some .readings := by decide +kernel
theorem test_ill_counter : (Instr.counterSet .host 4096 0#16).ill = some .counter := by decide +kernel
theorem test_ill_offset : (Instr.groupWrite .host 0x3000000 0#16).ill = some .offset := by decide +kernel
theorem test_ill_request : (Instr.registerWrite .host 7 (List.replicate 9 0#8)).ill = some .request ∧ (Instr.groupReadLatch .host ⟨0x6000000, 1⟩).ill = some .request := by decide +kernel
theorem test_ill_count : (Instr.readMem 0#48 65536 none).ill = some .count := by decide +kernel
theorem test_ill_time : (Instr.time (2 ^ 96) 0).ill = some .time := by decide +kernel
theorem test_ill_mseq : (Instr.stateDone (2 ^ 32)).ill = some .mseq := by decide +kernel
theorem test_ill_piece : (Instr.activation 9 0).ill = some .piece := by decide +kernel
theorem test_ill_pasid : (Instr.atsInvalidation 0 (2 ^ 20) 0 1).ill = some .pasid := by decide +kernel
theorem test_ill_scan : (Instr.extest [true] []).ill = some .scan := by decide +kernel
theorem test_ill_opcode : (Instr.reservedCommand { ring := 1 } 0x40#8).ill = some .opcode := by decide +kernel
theorem test_ill_stream : (Instr.frame 0 0 0 262144 false []).ill = some .stream := by decide +kernel
theorem test_well_formed : (Instr.addi 0 1 5#16 .mw).wellFormed = true ∧ (Instr.registerWrite .host 6 [0#8, 0#8]).wellFormed = true := by decide +kernel

/-! ### States of one engine -/

/-- The first word of reckoner 0's own local store in the straight window. -/
def own : Addr := 0xC04800000000#48

/-- A device with frame 0 powered and in service and one engine, as given. -/
def dev (e : EngId) (x : Engine) : State := { State.reset with frames := [(0, { powered := true, st := 0 })], eng := [(e.val, x)] }

/-- A running engine at the start of its local store, in a mode. -/
def eng (m : Mode) (r : Regs := {}) : Engine := { psr := { mode := m }, regs := r, pc := own, run := .running }

/-- A TLB entry for the first page of reckoner 0's local store at virtual address 0, with every permission, for user mode. -/
def page : Tbl TlbEntry := [(0, { valid := true, size := 12#6, u := true, x := true, wr := true, r := true, pa := 0x4800000000#40 })]

/-- A running engine in user mode, whose local store is mapped at 0. -/
def user (r : Regs := {}) : Engine := { psr := { mode := .user }, regs := r, run := .running, tlb := page, ftlb := page }

/-- Instructions of one, two and three words at the start of the store, and at the top of its room, in kernel and user mode. -/
theorem witness_clear : (∀ n ∈ [1, 2, 3], clear (dev 0 (eng .kernel)) 0 n = true ∧ clear (dev 0 user) 0 n = true) ∧
    clear (dev 0 { eng .machine with pc := 0xC0480001FFFF#48 }) 0 1 = true := by decide +kernel


theorem witness_WordInstructions : clear (dev 0 user) 0 1 = true ∧ clear (dev 0 user) 0 2 = true := by decide +kernel

theorem witness_LongInstructions : clear (dev 0 user) 0 1 = true ∧ clear (dev 0 user) 0 2 = true ∧ clear (dev 0 user) 0 3 = true := by decide +kernel
/-- Words at 0x48_0000_1000 and on, which the user page maps at 0x1000 and the straight window has at own + 0x1000. -/
def withWords (s : State) (at_ : Nat) (ws : List Word) : State := { s with mem := setWords s.mem at_ ws }

theorem witness_RegisterMoves : let s := dev 0 (eng .kernel { w := [(1, 0xFFFD#16)] })
    clear s 0 1 = true ∧ clear s 0 2 = true ∧ clear s 0 3 = true ∧ (((s.regsOf 0).rw 1).extractLsb' 0 3).toNat < 6 := by decide +kernel

theorem witness_NormCounts : (∀ a ∈ [(1 : Int), -1, 32767, -32768], (0 < 16 ∧ a ≠ 0) ∧ -(2 ^ (16 - 1)) ≤ a ∧ a < 2 ^ (16 - 1)) ∧
    (15 ≤ 16 - 1 ∧ -(2 ^ (16 - 1)) ≤ (-1 : Int) * 2 ^ 15 ∧ (-1 : Int) * 2 ^ 15 < 2 ^ (16 - 1)) ∧ clear (dev 0 user) 0 2 = true := by decide +kernel

theorem witness_RoundingModes : (5#3).toNat < 6 ∧ 0 < 16 ∧ (-(2 ^ (16 - 1)) ≤ (-32768 : Int) ∧ (32767 : Int) ≤ 2 ^ (16 - 1) - 1) ∧
    ((-32769 : Int) < -(2 ^ (16 - 1)) ∧ (2 : Int) ^ (16 - 1) - 1 < 32768) := by decide +kernel

theorem witness_Divides : let s := dev 0 (eng .kernel { w := [(1, 1#16)], mw := { dzt := true } }); let t := dev 0 (eng .kernel)
    clear s 0 2 = true ∧ ((s.regsOf 0).mw.dzt = true → (s.regsOf 0).rw 1 ≠ 0#16) ∧ clear t 0 2 = true ∧
    ((t.regsOf 0).mw.dzt = true → (t.regsOf 0).rw 1 ≠ 0#16) ∧ (-2147483648 ≤ (-2147483648 : Int) ∧ (2147483647 : Int) ≤ 2147483647) ∧
    (0xFFFF#16 : Word) ≠ 0#16 := by decide +kernel

theorem witness_RodsAndNarrowing : let s := dev 0 (eng .kernel { mw := { rnd := 5#3 } })
    clear s 0 1 = true ∧ clear s 0 2 = true ∧ isReckoner 0 = true ∧ isReckoner 191 = true ∧ (s.regsOf 0).mw.rnd.toNat < 6 ∧ (5#3).toNat < 6 := by decide +kernel

theorem witness_Steppers : let r : Regs := { w := [(2, 1#16), (4, 2#16)], q := [(0, { den := 2#32 })] }; let s := dev 0 (eng .kernel r)
    clear s 0 2 = true ∧ r.rl 0 = 0#32 ∧ (r.rl 1 ≠ 0#32 ∧ r.rl 1 ≠ (r.rq 0).den) ∧ (r.rl 2 ≠ 0#32 ∧ r.rl 2 = (r.rq 0).den) := by decide +kernel

theorem witness_LaneInstructions : let s := dev 0 (eng .kernel { mw := { rnd := 5#3 } })
    isReckoner 0 = true ∧ clear s 0 1 = true ∧ clear s 0 2 = true ∧ (s.regsOf 0).mw.rnd.toNat < 6 := by decide +kernel

/-- A lane instruction's open pair at the engine's point. -/
def laneFirst : PairRec := { regs := {}, next := own, lane := true, writes := [.v 0, .vv] }

theorem witness_Pairing : let s := dev 0 (eng .kernel); let t := dev 0 { eng .kernel with pair := some laneFirst }
    isReckoner 0 = true ∧ clear (s.modEng 0 fun x => { x with pair := none }) 0 1 = true ∧ (s.engAt 0).pair = none ∧
    clear (t.modEng 0 fun x => { x with pair := none }) 0 1 = true ∧ (t.engAt 0).pair = some laneFirst ∧ laneFirst.next = (t.engAt 0).pc ∧
    laneFirst.lane = true ∧ (laneFirst.writes.contains (.w 31)) = false := by decide +kernel

theorem witness_ControlMoves : let s := dev 0 (eng .machine); let t := dev 0 { eng .machine with regs := { brc := 1#16, bre := 9#48 } }
    clear s 0 1 = true ∧ ctrlWidth 0 = 16 ∧ (ctrlWidth 1 = 48 ∧ (15 : Fin 32).val < 16) ∧
    (∀ n : Fin 32, (ctrlPriv n false).rank ≤ (s.engAt 0).psr.mode.rank ∧ (ctrlPriv n true).rank ≤ (s.engAt 0).psr.mode.rank) ∧
    (s.engAt 0).regs.brc = 0#16 ∧ clear t 0 1 = true ∧ (t.engAt 0).pc ≠ (t.engAt 0).regs.bre := by decide +kernel

theorem witness_ControlRegisterFields : ({} : Engine).psr.mode = .machine ∧ (user).psr.mode ≠ .machine := by decide +kernel

theorem witness_SynchronousExceptions : let s := dev 0 (eng .kernel { w := [(1, 6#16)], mw := { dzt := true } }); let t := dev 0 user
    excOpen s 0 = true ∧ clear s 0 1 = true ∧ clear s 0 2 = true ∧ clear s 0 3 = true ∧ 6 ≤ (((s.regsOf 0).rw 1).extractLsb' 0 3).toNat ∧
    excOpen t 0 = true ∧ clear t 0 1 = true ∧ (t.engAt 0).psr.mode = .user ∧
    ((s.regsOf 0).mw.dzt = true ∧ (s.regsOf 0).rw 2 = 0#16) ∧ (2#16 : Word).toNat < 3 := by decide +kernel

theorem witness_reserved_1 : encodingDefined 0x03FF#16 0xFFFF#16 0xFFFF#16 = false ∧ wordLen 0x03FF#16 = 1 := by decide +kernel
theorem witness_reserved_2 : encodingDefined 0xA000#16 0xFFFF#16 0xFFFF#16 = false ∧ wordLen 0xA000#16 = 2 := by decide +kernel
theorem witness_reserved_3 : encodingDefined 0xFFFF#16 0xFFFF#16 0xFFFF#16 = false ∧ wordLen 0xFFFF#16 = 3 := by decide +kernel

theorem witness_NestedExceptions : let s := dev 0 { eng .kernel with psr := { mode := .kernel, hl := true } }; let t := dev 0 (eng .machine)
    clear s 0 1 = true ∧ (s.engAt 0).sb = [] ∧ (s.engAt 0).psr.hl = true ∧ (s.engAt 0).psr.mode ≠ .machine ∧
    clear t 0 1 = true ∧ (t.engAt 0).sb = [] ∧ (t.engAt 0).psr.mode = .machine := by decide +kernel

/-- What the statement of interrupts calls open, and the line taken. -/
def opened (s : State) : Bool × Option Nat :=
  let x := s.engAt 0
  (canIssue s 0 && x.psr.ie && !x.psr.hl && decide (x.psr.mode ≠ .machine) && !x.slot && x.stepLeft == 0,
   [9, 11, 10, 1, 0, 13, 8, 12, 2, 3].find? fun l => (x.ctrl.ipend &&& x.ctrl.imask).getLsbD l)

theorem witness_Interrupts : let x := { eng .kernel with psr := { mode := .kernel, ie := true }, ctrl := { ipend := 8#16, imask := 8#16 } }
    opened (dev 0 x) = (true, some 3) ∧ opened (dev 0 { x with ctrl := { ipend := 0x3F0F#16, imask := 0x3F0F#16 } }) = (true, some 9) ∧
    (x.sb = [] ∧ x.npc = none) ∧ (opened (dev 0 { x with ctrl := { imask := 8#16 } })).2 = none ∧ (opened (dev 0 (eng .machine))).1 = false := by decide +kernel

/-- What the statement of returns asks of an engine's place and of its debug requests once its stores are performed. -/
def returnable (s : State) : Bool :=
  let x := s.engAt 0; let y := (drainAll s 0).engAt 0
  unhindered s 0 1 && !x.slot && (x.npc == none || x.npc == some (x.pc + 1#48)) && !(x.repeating && x.pc == x.regs.bre) && !y.haltAsked && y.stepLeft == 0

theorem witness_Returns : let s := dev 0 { eng .machine with sb := [{ pa := 0x4800000100, words := [7#16] }] }
    let t := dev 0 { eng .kernel with psr := { mode := .kernel, prpe := true, hl := true }, regs := { brc := 1#16, bre := 5#48 }, ctrl := { spot := 5#48 }, npc := some (own + 1#48) }
    returnable s = true ∧ (s.engAt 0).psr.mode = .machine ∧ returnable t = true ∧ (t.engAt 0).psr.mode ≠ .user ∧
    (let y := (drainAll t 0).engAt 0
     y.psr.prpe = true ∧ y.regs.brc ≠ 0#16 ∧ y.ctrl.spot = y.regs.bre) := by decide +kernel

theorem witness_BudgetOverrun : let s := dev 0 { user with meter := { running := true, budget := 7#32, charge := 7#32 } }; let x := s.engAt 0
    clear (s.modEng 0 fun x => { x with meter := { x.meter with running := false } }) 0 1 = true ∧ x.sb = [] ∧ x.metered = true ∧
    x.meter.budget.toNat ≤ x.meter.charge.toNat ∧ x.psr.mode ≠ .machine ∧ s.jobCoach 0 = none ∧ s.jobBe 0 = none := by decide +kernel

/-- The physical address a word translates to. -/
def phys (s : State) (va : Addr) (k : Kind) : Option Nat := match translateWord s 0 va k with | .ok p => some p.pa | _ => none

theorem witness_TranslationPermits : (∀ k ∈ [Kind.fetch, .load, .store, .atomic], phys (dev 0 user) 0xFFF#48 k = some 0x4800000FFF) ∧
    phys (dev 0 (eng .kernel)) 0xC00000000000#48 .load = none ∧ phys (dev 0 (eng .kernel)) own .load = some 0x4800000000 := by decide +kernel

/-- The exception a word's access raises. -/
def refused (s : State) (va : Addr) (k : Kind) : Option Exc := match translate s 0 (accessVas va 1) k with | .error y => some y | .ok _ => none

theorem witness_DataAborts : let s := dev 0 (user { a := [(1, 0x1000#48)] }); let t := dev 0 (eng .kernel { a := [(1, 0xC00000000000#48)] })
    clear s 0 1 = true ∧ excOpen s 0 = true ∧ clear t 0 1 = true ∧ excOpen t 0 = true ∧
    refused s 0x1000#48 .load = some (.kern 1 (4 * 0 + 1) 0 (some 0x1000#48) []) ∧
    refused s 0x1000#48 .store = some (.kern 1 (4 * 0 + 2) 0 (some 0x1000#48) []) ∧
    refused t 0xC00000000000#48 .load = some (.kern 2 (4 * 2 + 1) 0 (some 0xC00000000000#48) []) ∧
    refused t 0xC00000000000#48 .store = some (.kern 2 (4 * 2 + 2) 0 (some 0xC00000000000#48) []) := by decide +kernel
/-- A running engine in kernel mode with the given TLB, besides the straight window. -/
def kern (r : Regs := {}) (tlb : Tbl TlbEntry := page) : Engine := { eng .kernel r with tlb := tlb }

/-- a1 in the mapped page, a2 in the straight window. -/
def addrs : Regs := { a := [(1, 0x0FC0#48), (2, 0xC04800001000#48)] }

theorem witness_Loads : let s := dev 0 (kern addrs); let r := s.regsOf 0
    clear s 0 (memLen (.sm 1 false)) = true ∧ loadsNow s 0 (memEa (.sm 1 false) r 1).va 1 = some [0#16] ∧ (memEa (.sm 1 false) r 1).bad = false ∧
    clear s 0 (memLen (.lm 2 (.ring 5#9 15#4))) = true ∧ loadsNow s 0 (memEa (.lm 2 (.ring 5#9 15#4)) r 2).va 2 = some [0#16, 0#16] ∧
    (memEa (.lm 2 (.ring 5#9 15#4)) r 2).bad = false ∧
    (∀ z ∈ [3, 5, 9, 16, 48], loadsNow s 0 (r.ra 1) z = some (List.replicate z 0#16)) ∧ isReckoner 0 = true ∧
    (clear s 0 3 = true ∧ loadsNow s 0 (xbaseEa (.pc 0xFFF#32) r (s.engAt 0).pc) 1 = some [0#16]) := by decide +kernel

theorem witness_Loads_qset : let s := withWords (dev 0 (kern addrs)) 0x4800000FC0 [1#16, 2#16, 3#16, 4#16, 5#16, 6#16]; let r := s.regsOf 0
    loadsNow s 0 (r.ra 1) 9 = some [1#16, 2#16, 3#16, 4#16, 5#16, 6#16, 0#16, 0#16, 0#16] ∧
    wordsAt [1#16, 2#16, 3#16, 4#16, 5#16, 6#16, 0#16, 0#16, 0#16] 5 2 ≠ 0 ∧ wordsAt (List.replicate 9 0#16) 5 2 = 0 := by decide +kernel

/-- The store buffer with n entries. -/
def filled (n : Nat) : List SbEntry := List.replicate n { pa := 0x4800000100, words := [7#16] }

theorem witness_Stores : let s := dev 0 { kern addrs with sb := filled 7 }; let t := dev 0 (kern addrs); let r := s.regsOf 0
    clear s 0 (memLen (.sm 1 true)) = true ∧
    storesNow s 0 (memEa (.sm 1 true) r 1).va 1 [r.rw 0] = some [{ pa := 0x4800000FC0, words := [0#16] }] ∧ (memEa (.sm 1 true) r 1).bad = false ∧
    storesNow s 0 (memEa (.sm 1 true) r 2).va 2 (longWords (r.rl 0)) = some [{ pa := 0x4800000FC0, words := [0#16, 0#16] }] ∧
    (storesNow s 0 (r.ra 1) 3 (toWords (r.ra 0).toNat 3)).isSome = true ∧ (storesNow s 0 (r.ra 1) 5 (toWords (r.rk 0).toNat 5)).isSome = true ∧
    (storesNow s 0 (r.ra 1) 9 (r.rq 0).words).isSome = true ∧ (storesNow s 0 (r.ra 1) 16 (laneWords r 0)).isSome = true ∧
    ((storesNow t 0 (r.ra 1) 48 (accWords r 0)).map List.length = some 3) ∧ (s.engAt 0).psr.mode ≠ .user ∧
    (storesNow s 0 (r.ra 1) 8 (tblGet {} (s.engAt 0).tlb 0).words).isSome = true ∧
    (clear s 0 3 = true ∧ (storesNow s 0 (xbaseEa (.reg 1 1#32) r (s.engAt 0).pc) 1 [r.rw 0]).isSome = true) := by decide +kernel

theorem witness_StoreBufferDrains : let b : SbEntry := { pa := 0x4800000100, words := [7#16] }
    let c : SbEntry := { pa := 0x100, words := List.replicate 16 1#16, cached := true, writeBack := true }
    ((dev 0 (eng .kernel)).engAt 0).sb = [] ∧ ((dev 0 { eng .kernel with sb := [b] }).engAt 0).sb = b :: [] ∧ (regionOf b.pa).isMemory = true ∧
    (b.cached = true → b.writeBack = true) ∧ (regionOf c.pa).isMemory = true ∧ (c.cached = true → c.writeBack = true) := by decide +kernel

/-- The physical places of an access, none where it is refused. -/
def places (s : State) (va : Addr) (n : Nat) (k : Kind) : Option (List Nat) :=
  match translate s 0 (accessVas va n) k with | .ok ps => some (ps.map Phys.pa) | .error _ => none

theorem witness_Atomics : let s := dev 0 { user addrs with pc := 0xFFF#48 }
    clear s 0 1 = true ∧ (s.engAt 0).sb = [] ∧ places s ((s.regsOf 0).ra 1) 1 .atomic = some [0x4800000FC0] ∧ isBad s 0x4800000FC0 = false := by
  decide +kernel

/-- A page of the host window at virtual address 0x10000. -/
def hostPage : Tbl TlbEntry := [(0, { valid := true, size := 12#6, dev := true, r := true, wr := true, va := 0x10000#48, pa := 0x8000000000#40 })]

/-- A load that waits for the host. -/
def waiting : PendLoad :=
  { dst := .w 3, inst := 1, vas := [0x10000#48], words := [none], upd := none, regs := {}, sh := { words := [0x6061#16] }, charge := 16000, fetchPa := 0
    pages := [], addrs := [], pasid := 1 }

theorem witness_HostWindow : let s := { dev 0 { kern { a := [(1, 0x10FFF#48)] } hostPage with ctrl := { hvalid := true, hinst := 511#9 } } with fn := { busMaster := true } }
    let t := dev 0 { eng .kernel with run := .hostWait waiting }
    clear s 0 1 = true ∧ (s.engAt 0).sb = [] ∧ places s ((s.regsOf 0).ra 1) 1 .load = some [0x8000000FFF] ∧ regionOf 0x8000000FFF = .host ∧
    (t.engAt 0).run = .hostWait waiting ∧ (t.engAt 0).haltAsked = false ∧ (t.engAt 0).stepLeft = 0 ∧ (t.engAt 0).npc = none ∧ (t.engAt 0).slot = false ∧
    waiting.dst = .w 3 ∧ waiting.words = [none] ∧ (t.engAt 0).repeating = false ∧ excOpen t 0 = true ∧ (t.engAt 0).metered = false ∧
    t.awaitsLoad 0 = false ∧ waiting.asked = false ∧ (s.engAt 0).run = .running ∧ s.awaitsLoad 0 = false := by decide +kernel

/-- DRAM on channel 0 at virtual address 0, cacheable. -/
def dramPage : Tbl TlbEntry := [(63, { valid := true, size := 8#6, c := true, r := true, wr := true, g := true })]

/-- A device with DRAM on channel 0, and an engine whose data cache holds its first line, dirty. -/
def cached : State :=
  { dev 0 { kern { a := [(1, 0xF#48)] } dramPage with sb := filled 7, dcache := [{ line := 0, dirty := true, data := List.replicate 16 5#16 }] } with
    csr := tblSet 0#16 resetRegs 0x100000 10#16 }

theorem witness_CacheAndTlbMaintenance : let s := cached; let x := s.engAt 0
    clear s 0 1 = true ∧ (x.sb.all fun b => !b.cached) = true ∧ x.sb.length < 8 ∧ places s (x.regs.ra 1) 1 .maint = some [15] ∧
    places s (x.regs.ra 1) 1 .wback = some [15] ∧ x.psr.mode ≠ .user ∧ tblWf {} x.tlb = true ∧ (x.dcache.find? fun d => d.line == lineOf 15).isSome = true := by
  decide +kernel

theorem witness_CacheAndTlbMaintenance_tlbput : let w (v : Word) : List Word := [v, 0#16, 0#16, 0#16, 0#16, 0#16, 0#16, 0#16]
    let s := withWords (dev 0 (kern addrs)) 0x4800000FC0 [0x8800#16]
    loadsNow s 0 ((s.regsOf 0).ra 1) 8 = some (w 0x8800#16) ∧ (TlbEntry.ofWords (w 0x8800#16)).valid = true ∧
    (TlbEntry.ofWords (w 0x8800#16)).size.toNat = 8 ∧ (TlbEntry.ofWords (w 0xAC00#16)).size.toNat = 44 ∧
    (TlbEntry.ofWords (w 0x2C00#16)).valid = false := by decide +kernel

theorem witness_WaitingAndFences : let s := dev 0 { eng .kernel with sb := filled 8 }
    clear s 0 1 = true ∧ (s.engAt 0).psr.mode ≠ .user ∧
    ((s.engAt 0).sb.all fun b => (regionOf b.pa).isMemory && (!b.cached || b.writeBack)) = true := by decide +kernel

theorem witness_Branches : clear (dev 0 user) 0 1 = true ∧ clear (dev 0 user) 0 2 = true := by decide +kernel

theorem witness_SlotsAndRepeats : let s := dev 0 { user with slot := true, npc := some 9#48 }; let t := dev 0 { user with slot := true, annul := true }
    let u := dev 0 (user { brc := 1#16, bre := 0#48 }); let at_ := fun (v : State) => (v.engAt 0).repeating && (v.engAt 0).pc == (v.engAt 0).regs.bre
    (unhindered s 0 1 = true ∧ (s.engAt 0).slot = true ∧ at_ s = false ∧ (s.engAt 0).annul = false) ∧
    (unhindered t 0 1 = true ∧ (t.engAt 0).slot = true ∧ at_ t = false ∧ (t.engAt 0).annul = true) ∧
    (unhindered u 0 1 = true ∧ (u.engAt 0).slot = false ∧ (u.engAt 0).npc = none ∧ at_ u = true) ∧
    (clear (dev 0 user) 0 3 = true ∧ 3 ≤ (3#16 : Word).toNat) := by decide +kernel

/-- A string of one word from a12 to a13. -/
def strings (n : Nat) : State :=
  dev 0 (user { w := [(30, BitVec.ofNat 16 n), (31, 1#16)], a := [(12, 0x100#48), (13, 0x200#48)] })

theorem witness_Strings : let s := strings 1; let r := s.regsOf 0
    clear s 0 1 = true ∧ ((strings 0).regsOf 0).rw 30 = 0#16 ∧ clear (strings 0) 0 1 = true ∧ r.rw 30 ≠ 0#16 ∧ loadsNow s 0 (r.ra 12) 1 = some [0#16] ∧
    loadsNow s 0 (r.ra 13) 1 = some [0#16] ∧ storesNow s 0 (r.ra 13) 1 [0#16] = some [{ pa := 0x4800000200, words := [0#16] }] ∧
    storesNow s 0 (r.ra 13) 1 [r.rw 31] = some [{ pa := 0x4800000200, words := [1#16] }] ∧ (s.engAt 0).sb = [] ∧
    loadsNow (withWords s 0x4800000200 [9#16]) 0 (r.ra 13) 1 = some [9#16] := by decide +kernel

/-- A waybill of 48 words: generation 1, instance 1, period code 2, entry 0 board 0, entry 15 board 4,095. -/
def waybill : List Word :=
  [0x4001#16, 0#16, 0#16, 1#16] ++ List.replicate 20 0#16 ++ [0x8000#16] ++ List.replicate 14 0#16 ++ [0xCFFF#16] ++ List.replicate 8 0#16

/-- A job on reckoner 0, with boards 0 and 4,095 of two blocks. -/
def job (k : BoardBlock := {}) : State :=
  let d : BoardDesc := { valid := true, owner := 1, period := 2, len1 := 1, expect := 1#16, expectNext := 1#16 }
  { dev 0 { kern { w := [(3, 1#16), (4, 2#16)] } with trk := { active := true, waybill := waybill, posted := [(15, 1)] } } with
    boards := [(0, d), (4095, { d with firstGen := 1#32 })], blocks := [(blockKey 0 0 1, k)] }

theorem witness_Jobs : let s := withWords (dev 0 (kern addrs)) 0x4800000FC0 waybill; let x := s.engAt 0
    clear s 0 1 = true ∧ x.psr.mode ≠ .user ∧ x.meter.running = false ∧ (s.posts.all fun p => !(p.pad && p.src == (0 : EngId).val)) = true ∧
    loadsNow s 0 (x.regs.ra 1) 48 = some waybill ∧ x.sb = [] ∧ x.trk.active = false ∧
    (clear job 0 1 = true ∧ (job.engAt 0).trk.active = true ∧ job.jobCoach 0 = none ∧ job.jobBe 0 = none) := by decide +kernel

theorem witness_BoardPostsAndLoads_posts : let x := job.engAt 0; let b := fun c => boardEntry x.trk c
    clear job 0 1 = true ∧ isReckoner 0 = true ∧ ((b 0).1 = true ∧ x.trk.count 0 ≤ (job.board (b 0).2.2).len1) ∧
    ((b 15).1 = true ∧ x.trk.count 15 ≤ (job.board (b 15).2.2).len1) ∧ (b 1).1 = false ∧ excOpen job 0 = true := by decide +kernel

theorem witness_BoardPostsAndLoads_loads : let s := job { tag := 0#32, count := 1 }; let x := s.engAt 0; let g := x.trk.gen - 1#32
    let d := s.board (boardEntry x.trk 0).2.2; let k := s.block 0 1 g; let d15 := s.board (boardEntry x.trk 15).2.2
    clear s 0 1 = true ∧ ((boardEntry x.trk 1).1 = false ∧ d.len1 < (x.regs.rw 4).toNat) ∧
    (¬ ((boardEntry x.trk 15).1 = false ∨ d15.len1 < (x.regs.rw 3).toNat) ∧ genGe g d15.firstGen = false) ∧
    (¬ ((boardEntry x.trk 0).1 = false ∨ d.len1 < (x.regs.rw 3).toNat) ∧ genGe g d.firstGen = true ∧ d.valid = true ∧ k.tag = g ∧
      k.poison = false ∧ k.count = d.expected g) := by decide +kernel

theorem witness_PostArrivals : let p : Post := { src := 0, board := 0, blk := 0, gen := 1#32, inst := 1, period := 2, pad := false, data := [] }
    let s := { job with posts := [p, { p with inst := 2 }] }; let d := s.board p.board
    s.posts[2]? = none ∧ s.posts[0]? = some p ∧ (d.valid = true ∧ d.owner = p.inst ∧ d.period = p.period) ∧
    (s.posts[1]? = some { p with inst := 2 } ∧ d.owner ≠ 2) ∧ (job.board 1).valid = false := by decide +kernel

theorem witness_InputQueues_deliveries : let s := dev 0 (eng .kernel); let t := withWords s (slotBase 0 3) [0x8000#16]
    engPowered s 0 = true ∧ (List.replicate 120 0#16 : List Word).length ≤ 120 ∧ queueFull s 0 0 = false ∧ queueFull t 0 0 = true ∧
    queueFull t 0 3 = false := by decide +kernel

theorem witness_InputQueues_messages : let s := dev 0 (kern { addrs with w := [(1, 0x00FF#16), (2, 0x0F00#16), (3, 8#16)] }); let x := s.engAt 0
    clear s 0 1 = true ∧ x.psr.mode ≠ .user ∧ x.sb = [] ∧ loadsNow s 0 (x.regs.ra 1) (fld (x.regs.rw 1) 8 4 + 1) = some [0#16] ∧
    msendTarget (x.regs.rw 1) = none ∧ loadsNow s 0 (x.regs.ra 1) (fld (x.regs.rw 2) 8 4 + 1) = some (List.replicate 16 0#16) ∧
    (msendTarget (x.regs.rw 2) = some 0 ∧ engInService s 0 = true) ∧ (msendTarget (x.regs.rw 3) = some 8 ∧ engInService s 8 = false) := by decide +kernel

/-! ### The other units -/

/-- A device with registers of its own at these words. -/
def dvc (l : List (Nat × Word)) : State := l.foldl (fun s x => s.setReg x.1 x.2) State.reset

/-- The same, with every domain of the core on and the device in service. -/
def core (l : List (Nat × Word)) : State := dvc ((0x02000C, 0xFF00#16) :: (0x030000, 0xC009#16) :: l)

theorem witness_StepRunsCommand : let s := { State.reset with pending := [.halt] }; s.pending = .halt :: [] := by decide +kernel
theorem witness_ResetState : State.reset.pending = [] := by decide +kernel

theorem witness_DeviceTime : let s := dvc []; let t := dvc [(0x010018, 0x0400#16)]; let u := { s with clk := { s.clk with setNext := some 5 } }
    s.bit 0x010018 10 = false ∧ u.bit 0x010018 10 = false ∧ t.bit 0x010018 10 = true ∧ t.clk.setNext = none := by decide +kernel

theorem witness_TimeCommits : let s := core []; let t := dvc [(0x0F0000, 0x8000#16)]; let on := { s with frames := [(23, { powered := true })] }
    mayWrite .host 0x01000D = true ∧ ¬ (s.timeInUse = true ∨ s.slaved = true) ∧ t.slaved = true ∧ mayWrite (.eng 192) 0x010015 = true ∧
    incOk 7330077 4861 9375 = true ∧ incOk 0 0 0 = false ∧ mayWrite .host 0x010033 = true ∧
    (mayWrite .host (almBase 15) = true ∧ s.bit (almBase 15 + 10) 15 = false) ∧ (mayWrite (.eng 191) (tmrBase 23 7) = true ∧ frameOn on 23 = true ∧
      on.bit (tmrBase 23 7) 7 = false ∧ (0x8000#16 : Word).getLsbD 7 = false) := by decide +kernel

theorem witness_ComparatorsAct : let s := { core [(anaBase 0, 0x8000#16), (anaBase 1, 0x8000#16), (anaBase 1 + 2, 0x8000#16), (almBase 15, 1#16),
      (almBase 15 + 10, 0x8000#16), (tmrBase 23 7, 0x8000#16), (tmrBase 23 7 + 2, 1#16), (tmrBase 23 0, 0x4000#16), (0x010030, 1#16)] with
      frames := [(23, { powered := true })], clk := {} }
    (s.alarmNext 0 = false ∧ s.alarmNext 15 = true) ∧ (s.timerFires 0 0 = false ∧ s.timerFires 23 7 = true ∧ s.jobCoach (reckoner 191) = none) ∧
    ((dvc [(0x010033, 1#16)]).startNext = false ∧ s.startNext = true) ∧
    (frameOn s 23 = true ∧ s.bit (tmrBase 23 0) 14 = true ∧ s.bit (tmrBase 23 0) 15 = false) ∧
    (s.anaEnters 0 (-1) = true ∧ s.anaEnters 0 1 = false ∧ s.anaLeaves 1 999 = true ∧ s.anaLeaves 1 (-1) = false) ∧
    (mayWrite .host (tmrBase 23 7) = true ∧ fld 0x0000#16 12 2 ≠ 3 ∧ (0x0000#16 : Word).getLsbD 7 = false) := by decide +kernel

theorem witness_PpsPins : (49 < 50 ∧ 50 ≤ 50) ∧ (dvc [(0x010026, 0x8000#16)]).bit 0x010026 15 = true ∧ (dvc []).clk.ppsOut = false := by decide +kernel

/-- A device with its always-on domain and core supply on, in a state of the wake controller, at a time in µs. -/
def waking (w : WakeSt) (us : Nat) (l : List (Nat × Word)) : State :=
  { dvc l with time := us * 281474977, pw := { wake := w, vcoreEn := true, resetLow := false } }

theorem witness_SupplyAndWake : let n := waking .night 10000 [(0x010410, 0x8000#16)]
    ((459 < (460 : Int)) ∧ (460 : Int) ≤ 460 ∧ n.pw.vcoreEn = true) ∧ (n.pw.wake = .night ∧ n.slotsOn = [0]) ∧
    (usPassed n.pw.retAt n.time 10000 = true ∧ usPassed n.pw.retAt (waking .night 9999 []).time 10000 = false) ∧
    ((waking (.stage 3) 50000 []).pw.wake = .stage 3 ∧ usPassed 0 (waking (.stage 3) 50000 []).time (wakeLimit 3) = true ∧ n.pw.wake ≠ .stage 3) ∧
    ((waking (.stage 0) 0 [(0x010401, 0x0080#16)]).bit 0x010401 7 = true ∧ usPassed 0 (waking (.stage 0) 10000 []).time (wakeLimit 0) = true) ∧
    (waking (.retry 0) 100000 []).pw.wake = .retry 0 ∧ usPassed 0 (waking (.retry 0) 100000 []).time 100000 = true := by decide +kernel

/-- A device in a stage of start-up. -/
def starting (w : Word) : State := { waking .awake 0 [(0x030000, w)] with time := 3 * 2 ^ 48 }

/-- A pending activation of a STORE_PUTS-like piece at device time 0. -/
def act (kind index : Nat) : PendAct := { piece := { kind := kind, index := index, pver := 0#16, serial := 0, digest := [], octets := [] }, instant := 0 }

theorem witness_StartUp : let s := { waking .awake 0 [] with cf := { acts := [act 4 1, act 2 0, { act 5 0 with instant := 1 }], erasing := some 0 } }
    (State.reset.pw.resetLow = true ∧ (starting 1#16).pw.resetLow = false) ∧ (starting 1#16).stage = 1 ∧ (starting 2#16).stage = 2 ∧ (starting 5#16).stage = 5 ∧
    (starting 8#16).stage = 8 ∧ (starting 8#16).bit 0x030000 15 = false ∧ (starting 9#16).stage = 9 ∧ (starting 0#16).stage = 0 ∧
    ((starting 0x1008#16).bit 0x030000 12 = true ∧ (starting 0x1008#16).bit 0x030000 15 = false ∧ usPassed 0 (starting 0x1008#16).time 3000000 = true ∧
      (starting 8#16).bit 0x030000 12 = false) ∧
    (let j := { dvc [(0x038000, 0x8001#16)] with jr := { jring := [[1#16]] } }; j.backlog = 1 ∧ j.bit 0x038000 15 = true ∧ j.jr.jring[0]? = some [1#16]) ∧
    (s.cf.erasing ≠ none ∧ s.cf.acts.find? (fun a => decide (a.piece.kind = 2) && decide (a.piece.index = 0)) = some (act 2 0) ∧
      s.actDue (act 2 0) = true ∧ s.actDue (act 4 1) = true ∧ s.actDue { act 5 0 with instant := 1 } = false ∧
      s.cf.acts.find? (fun a => decide (a.piece.kind = 3) && decide (a.piece.index = 0)) = none ∧
      ∀ b ∈ s.cf.acts, b.taken = true ∨ s.actDue b = false ∨ 2 ≤ b.piece.kind) := by decide +kernel

theorem witness_FencingAndChecking : let s := { core [(0x0F0000, 0x4400#16)] with time := 20 * 281474977, tw := { hbStopped := false, gateClosed := false } }
    let t := core [(0x380000, 0x2000#16)]
    (s.tw.hbStopped = false ∧ usPassed s.tw.kickAt (s.time + s.incUnits) 20 = true ∧ s.linkUp = true ∧ t.tw.hbStopped = true) ∧
    ((({ s with eng := [((stewardPair 3).val, { run := .halted })] } : State).engAt (stewardPair 3)).run = .halted ∧ s.regOn 0x0F0001 = true ∧ s.tw.kickOff = false ∧ s.pw.scanTaken = false ∧ s.pairActive 0 = true ∧
      (({ s with eng := [((stewardPair 0).val, eng .kernel)] } : State).engAt (stewardPair 0)).run ≠ .halted) ∧
    (mayWrite .host 0x380001 = true ∧ s.regOn 0x380001 = true ∧ s.bit 0x380000 13 = false ∧ t.bit 0x380000 13 = true) ∧
    s.pairMask &&& s.activeMask ≠ 0#16 := by decide +kernel

theorem witness_RegisterAccess : let s := core []
    (1 < (regGroup 0x010008).2 ∧ (regGroup 0x010028).2 = 1) ∧ (mayWrite (.eng 0) 0x010028 = false ∧ 0x080000 < 0x400000 ∧ (dvc []).regOn 0x080000 = false) ∧
    (mayWrite .host 0x010008 = true ∧ s.regOn 0x010008 = true ∧ 0x010008 + 1 < (regGroup 0x010008).1 + (regGroup 0x010008).2 ∧
      (regGroup 0x01000D).1 + (regGroup 0x01000D).2 = 0x01000D + 1 ∧ (regGroup 0x01000D).2 ≠ 1) ∧
    ((regGroup 0x010027).2 = 1 ∧ (regInfo 0x010027).isSome = true ∧ s.legal 0x010027 1#16 = true ∧ s.legal 0x010027 0#16 = false) ∧
    s.fn.perstLow = false ∧ 7 / 8 ≠ (7 + 2 - 1) / 8 ∧
    (mayWrite .host (0x0E8000 + 3183 * 8 + 3) = true ∧ s.domainOn 29 = true ∧ s.domainOn (groupDomain (groupOf 3183)) = true) := by decide +kernel


/-- A courier channel of frame 0 at a descriptor in its frame store: 2 words from 0x4000000100 to an address, with line CUR, then the next one. -/
def courier (dst next : Nat) : State :=
  withWords { dev 0 (eng .kernel) with cur := [(15, 0x4000000000)], csr := [(curBase 0 15 + 4, 0x8000#16)] } 0x4000000000
    ([0xC000#16] ++ toWords 0x4000000100 3 ++ toWords dst 3 ++ [2#16, 1#16, 0#16, 0#16, 0#16, 0#16] ++ toWords next 3)

theorem witness_Couriers : let s := courier 0x4000000200 0; let t := courier 0x4000000200 0x4000000040; let u := courier 0x4400000000 0; let d := s.curAt 0 15
    (mayWrite .host (curBase 0 15 + 3) = true ∧ frameOn s 0 = true ∧ s.curBusy 0 15 = true ∧ s.curBusy 0 0 = false ∧ (0x4000#16 : Word).getLsbD 14 = true) ∧
    (s.curRuns 0 0 = false ∧ s.curRuns 0 15 = true ∧ (s.curTry 0 15).2 = none ∧ d.irq = true ∧ d.next = 0 ∧ (t.curTry 0 15).2 = none ∧
      (t.curAt 0 15).next ≠ 0 ∧ d.rows = 1 ∧ d.src + d.len ≤ 0x4E00000000 ∧ d.dst + d.len ≤ 0x4E00000000) ∧
    (u.curRuns 0 15 = true ∧ (u.curTry 0 15).2 = some 2) := by decide +kernel

/-- A ledger's record of a minute. -/
def rec_ (m : Nat) : List Word := [0#16, 0#16] ++ toWords m 3 ++ List.replicate 251 0#16

theorem witness_TallyActs : let i : Inst := { st := .active, ledger := { held := [rec_ 0] } }
    let s := { core [(0x0E0000, 0x8000#16)] with time := 61 * 2 ^ 48, inst := [(1, i), (511, i)], ty := { lrOn := true, lrLog2 := 4 }, fn := { busMaster := true } }
    let o := { s with inst := [], ty := { s.ty with lrOrphans := [(rec_ 0, true)] } }; let t := dev 191 (eng .kernel)
    let u : State := { State.reset with frames := [(23, { powered := true, st := 0 })], eng := [(191, { run := .halted, perf := [(4, { en := true }), (5, { en := true })] })] }
    ((core []).minuteDone 0 = false ∧ s.minuteDone s.ty.minute = true ∧ s.minuteCounted s.ty.minute = true ∧ s.billed = [1, 511] ∧ tblGet none s.tw.adopt 511 = none) ∧
    ((core []).nextRecord = none ∧ s.ty.lrOrphans = [] ∧ s.nextRecord = some 1 ∧ (s.instAt 1).ledger.held = rec_ 0 :: [] ∧ s.lrRoom = true ∧
      o.ty.lrOrphans = (rec_ 0, true) :: [] ∧ o.lrRoom = true ∧ (core []).lrRoom = false) ∧
    (mayWrite .host 0x0E0002 = true ∧ mayWrite .host 0x0E0004 = true ∧ s.domainOn 29 = true ∧ s.snapBusy = true ∧ (core []).snapBusy = false) ∧
    (frameOn t 23 = false ∧ frameOn u 23 = true ∧ (tblGet {} (u.engAt (reckoner 191)).perf 4).en = true ∧ (u.engAt (reckoner 191)).run = .halted ∧
      (tblGet {} (u.engAt (reckoner 191)).perf 5).en = true) := by decide +kernel

/-- A device with instance 511 active and its three rings at 16 entries. -/
def rings (l : List (Nat × Word)) : State :=
  let p := portal 511
  { core ([(p 3, 0x8004#16), (p 11, 0x8004#16), (p 19, 0x8B04#16)] ++ l) with inst := [(511, { st := .active, vector := 2047 })], fn := { busMaster := true, msixOn := true } }

theorem witness_PortalWrites : let s := rings []; let p := portal 511
    let u := rings [(p 13, 1#16), (0x1000000 + 2047 * 8 + 6, 1#16), (0x1008000 + 2047 / 16, 0x8000#16)]
    ((s.instAt 1).st = .free ∧ s.fn.perstLow = false ∧ (s.instAt 511).st ≠ .free) ∧
    (ringCount 16#16 (s.reg (p 5)) ≤ 2 ^ s.ringLog2 511 3 ∧ ¬ ringCount 17#16 (s.reg (p 5)) ≤ 2 ^ s.ringLog2 511 3 ∧ s.pairActive 0 = true) ∧
    (ringCount (s.reg (p 13)) 0#16 ≤ 2 ^ s.ringLog2 511 11 ∧ ¬ ringCount (s.reg (p 13)) 1#16 ≤ 2 ^ s.ringLog2 511 11) ∧
    (s.reg (p 13) = s.reg (p 12) ∧ s.reg (p 21) = s.reg (p 20) ∧ u.reg (p 13) ≠ u.reg (p 12) ∧ s.bit (0x1000000 + s.vectorOf 511 * 8 + 6) 0 = false ∧
      u.bit (0x1000000 + u.vectorOf 511 * 8 + 6) 0 = true) ∧
    (s.ringOn 511 19 = true ∧ (core []).ringOn 511 19 = false ∧ 4 ≤ fld 0x8E04#16 0 4 ∧ 11 ≤ fld 0x8E04#16 8 4 ∧ fld 0x8E04#16 8 4 ≤ 14) ∧
    (u.bit (0x1008000 + 2047 / 16) (2047 % 16) = true ∧ s.bit (0x1008000 + 2047 / 16) (2047 % 16) = false) := by decide +kernel

theorem witness_HostFunction : let s := rings []; let t := { s with fn := { s.fn with perstLow := true } }; let u := dvc [(0x02000C, 0xFF00#16)]
    (t.fn.perstLow = true ∧ s.fn.perstLow = false ∧ s.hostReady = true ∧ s.cplRoom 511 = true) ∧ (s.domainOn 29 = true ∧ u.hostReady = false ∧ u.domainOn 29 = true ∧
      u.fn.perstLow = false ∧ State.reset.domainOn 29 = false) ∧
    (let d := { s with fn := { s.fn with d3hot := true } }
     d.fn.d3hot = true ∧ d.cplRoom 511 = true ∧ (d.instAt 511).notices = [] ∧ s.fn.d3hot = false ∧ s.fn.invals = []) ∧
    (let l := { dev 0 { eng .kernel with run := .hostWait { waiting with pages := [5] } } with inst := [(1, { st := .active, pasid := 9 })] }
     (l.loadsOf 1 fun q => q.pages.any fun p => decide (5 ≤ p) && decide (p < 6)) = [0] ∧
     ((l.inst.find? fun x => decide (x.2.st ≠ .free) && decide (x.2.pasid = 9)).map Prod.fst) = some 1) := by decide +kernel

/-- A coach on reckoner 191 with one channel from period 0 on. -/
def coach : Coach := { inst := 1, valid := true, reck := 191, members := [{ stream := 0, first := 0 }], stateBase := 0x1000 }

/-- A device with frame 23 in service, reckoner 191 running and a coach on it, at a device time. -/
def inn (c : Coach) (t : Nat) : State :=
  { core [(0x0C0000, 0#16)] with time := t, frames := [(23, { powered := true, st := 0 })], eng := [(191, { run := .running })],
                                 ik := { coaches := [(5, c)], progs := [(2048, { valid := true })] }, inst := [(1, { st := .active })] }

theorem witness_RoundsAndBoundaries : let s := inn { coach with moveTo := some (0, 0) } (2 ^ 48); let f := fun (x : FrameSt) => { core [] with frames := [(23, x)] }
    let k := s.coach 5; let x : FrameSt := { powered := true, st := 1, recal := true, back := true }
    ((core []).time < ((core []).ik.round + 1) * 2 ^ 38 ∧ (s.ik.round + 1) * 2 ^ 38 ≤ s.time ∧ s.regOn 0x0C0000 = true) ∧
    (boundaryOf 1 (s.ik.grid + 1) ≤ s.time ∧ k.valid = true ∧ (s.ik.grid + 1) % k.mul = 0 ∧ k.withdrawn = none ∧ (∃ x ∈ k.members, x.last = none) ∧
      k.moveTo = some (0, 0) ∧ 0 ≤ (s.ik.grid + 1) / k.mul) ∧
    ({ coach with pad := some 1 }.pad ≠ none) ∧
    (((f x).frameAt 23).st = 1 ∧ (f x).frameEmpty 23 = true ∧ ((f x).frameAt 23).recal = true ∧ ((f x).frameAt 23).retire = false ∧
      (f x).pw.parkAsked = false ∧ ((f x).frameAt 23).back = true ∧ ((f x).frameAt 23).powered = true ∧ (s.frameAt 23).st ≠ 1) := by decide +kernel

/-- A best-effort job of instance 1. -/
def beJob : BeJob := { id := 0, inst := 1, prog := 0, budget := 1, tag := 0#16, finish := {} }

theorem witness_Waybills : let s := inn coach (2 ^ 27); let e := reckoner 191; let u := inn { coach with reck := 0 } (2 ^ 27)
    let b := { s with ik := { s.ik with coaches := [], bejobs := [beJob] }, inst := [(1, { st := .active, buckets := [1024, 1024, 0] })] }
    ((core []).dueWaybill 5 = none ∧ s.dueWaybill 5 = some 0 ∧ s.isNext 5 0 = true ∧ engInService s e = true ∧ (s.engAt e).run ≠ .halted ∧
      queueFull s e 3 = false ∧ s.bad = [] ∧ ownPlace e 0x4F0000000000#48 (s.stagedWords (s.coach 5) 0) = none ∧
      ownPlace e 0x4F00000000#48 (s.stagedWords (s.coach 5) 0) = some (ownBase e)) ∧
    (let t := { s with ik := { s.ik with coaches := [(4, coach), (5, coach)] } }; t.dueWaybill 5 = some 0 ∧ t.isNext 5 0 = false) ∧
    (u.dueWaybill 5 = some 0 ∧ u.isNext 5 0 = true ∧ engInService u (reckoner 0) = false) ∧
    (s.placeable 0 = false ∧ s.bit 0x0C0000 15 = false ∧ s.parked = false ∧ s.leads = true ∧ s.placeable (frameOf 191) = true) ∧
    ((s.beWaiting.find? fun j => s.beReady j) = none ∧ (b.beWaiting.find? fun j => b.beReady j) = some beJob ∧ b.bad = [] ∧
      queueFull (b.copyWords 0 (ownBase e) 0) e 3 = false) := by decide +kernel

/-- A word of the coach's state in DRAM is uncorrectable. -/
theorem witness_Waybills_bad : let s := { inn coach (2 ^ 27) with ik := { coaches := [(5, coach)], progs := [(2048, { valid := true, staged := 1 })] }, bad := [(badKey 0x1000, true)] }
    s.dueWaybill 5 = some 0 ∧ s.isNext 5 0 = true ∧ s.stateOf coach 0 = 0x1000 ∧ (s.progOf (s.coach 5)).staged = 1 ∧ isBad s 0x1000 = true ∧
    (s.coach 5).at_ 0 = [{ stream := 0, first := 0 }] := by decide +kernel

theorem witness_GovernorAndFrames : let s := { core [] with time := 3600 * 2 ^ 48, frames := [(0, { powered := true }), (23, { poweringUp := true, st := 2 })] }
    let r := { s with csr := tblSet 0#16 s.csr 0x020002 1#16, frames := [(23, { powered := true, st := 0 })] }
    (usPassed s.pw.intervalAt s.time 100 = true ∧ s.regOn 0x020000 = true ∧ usPassed 0 (core []).time 100 = false ∧ frameOn s 0 = true ∧ 1599 < 1600) ∧
    ((s.frameAt 0).poweringUp = false ∧ (s.frameAt 23).poweringUp = true) ∧
    (fld (s.reg 0x020002) 0 8 = 0 ∧ fld (r.reg 0x020002) 0 8 = 1 ∧ r.leads = true ∧ usPassed r.pw.recalAt r.time (1 * 3600000000) = true ∧
      (∀ g < 24, (r.frameAt g).recal = false) ∧ r.nextInService r.pw.recalNext = some 23 ∧ r.allPlaced 23 = true) := by decide +kernel

/-- A broadcast ARP frame of 60 octets. -/
def arp : List Byte := List.replicate 12 0xFF#8 ++ [0x08#8, 0x06#8] ++ List.replicate 46 0#8

/-- A broadcast UDP datagram from 0.0.0.0 to port 5 of 0.0.0.0 with an RTP packet of 18 octets: timestamp 1. -/
def media : List Byte :=
  List.replicate 12 0xFF#8 ++ [0x08#8, 0x00#8, 0x45#8, 0#8, 0#8, 46#8, 0#8, 0#8, 0#8, 0#8, 1#8, 17#8, 0xB9#8, 0xC0#8] ++ List.replicate 8 0#8 ++
    [0#8, 0#8, 0#8, 5#8, 0#8, 26#8, 0#8, 0#8] ++ [0x80#8, 0#8, 0#8, 0#8, 0#8, 0#8, 0#8, 1#8] ++ List.replicate 10 7#8

/-- A device with port 1 up and stream 3 at port 5, key in the stash. -/
def ports : State :=
  { core [(0x080011, 0x8000#16), (portal 0 19, 0x8B04#16)] with
    clk := { phi := 7330077 }, tw := { gateClosed := false }, fn := { busMaster := true }
    gh := { streams := [(3, { valid := true, ringLog2 := 4, slotUnits := 1, slotTs := 1, pktLimit := 1, ringBase := 0x1000, template := 0x40, coach := some 0,
                              templateWords := 27, tmpl := List.replicate 27 0#16 })]
            stash := [{ key := { full := false, group := 8, vid := 0, v6 := false, dst := 0, dport := 5 }, stream := 3, leg := true }] } }

theorem witness_Ingress_arp : let s := ports; let o := withFcs arp
    s.ghOn = true ∧ (1 : Nat) < s.portCount ∧ s.bit (0x080010 + 1) 15 = true ∧ s.bit (0x080010 + 0) 15 = false ∧ s.macReason 1 o = none ∧
    s.macReason 1 (o.drop 1) ≠ none ∧ etherType (o.take 60) = 0x0806 ∧ s.leads = true ∧ s.puntRoom 0 = true ∧ s.portCount ≤ 7 ∧
    State.reset.ghOn = false := by decide +kernel

/-- A port of mode 2 takes the PHY of code 2 alone; without AN it is the image's forced one. -/
theorem witness_Ingress_link : let s := ports; let m := core [(0x080000, 0x0002#16)]
    s.ghOn = true ∧ 0 < s.portCount ∧ s.phyUsable 1 = false ∧ 7 < m.portCount + 8 ∧ m.phyUsable 2 = decide (m.params 15 % 8 = 2) := by decide +kernel

theorem witness_Ingress_media : let s := ports; let o := withFcs media; let r := s.readTime; let f := o.take (o.length - 4); let ip := parseIp f
    (s.macReason 1 o = none ∧ etherType f ≠ 0x88F7 ∧ isIp f = true ∧ ip.bad = false ∧ ip.sumBad = false ∧ ip.opts = false ∧ ip.ext = false ∧
      ip.frag = none ∧ ip.proto = 17 ∧ ip.hasUdp = true ∧ udpOk f ip = true ∧ udpDport f ip = 5 ∧ s.ctlPort ip.dst (udpDport f ip) = none) ∧
    (s.classify 1 ((vlanId f).getD 0) ip.v6 ip.dst (udpDport f ip) ip.src (udpSport f ip)).map KeySlot.stream = some 3 ∧
    (let x := s.stream 3; let d := udpPayload f ip; let cur := curPeriod x.mul r.1; let n := x.aheadOf cur (beNat d 4 4)
      x.ssrcChk = false ∧ x.srtp = false ∧ x.form < 2 ∧ octAt d 1 % 128 = 0 ∧ (s.police 3 true false cur).2 = false ∧ n = 1 ∧ n < (2 ^ x.ringLog2 : Int) ∧
      cur = 0 ∧ r.1 < boundaryOf x.mul 1 ∧ s.slotHas (x.slotAt true 1) 1 = false ∧ (rtpParts d).data.length ≤ 8 * x.slotUnits) := by decide +kernel

/-- A departure entry of stream 3: KIND, its template's words and no payload. -/
def depWords (w : Word) : List Word := [w] ++ List.replicate 6 0#16 ++ [3#16] ++ List.replicate 8 0#16

theorem witness_DeparturesAndTables : let s := ports; let d := depOf (depWords 0x8000#16) 1 fun i => (s.stream i).egressPort; let b := { d with at_ := 1 }
    let q := { s with gh := { s.gh with board := [b] } }; let sh := { q with tw := { gateClosed := false, shadow := true } }
    let r : Ready := { release := 0, port := 7, stream := 3, order := 0, admitted := true, frame := [] }
    (((wordAt (depWords 0xA000#16) 0).getLsbD 15 = true ∧ (depOf (depWords 0xA000#16) 1 fun _ => 0).kind = 1 ∧ s.looseRoom = true ∧
      (depOf (depWords 0xA000#16) 1 fun _ => 0).release ≤ s.now + 2 ^ 48 ∧ 1 < s.now + usUnits 2) ∧ (depOf (depWords 0xE000#16) 1 fun _ => 0).kind = 3) ∧
    (s.dueDep = none ∧ q.dueDep = some b ∧ (∃ o, (q.depFrame b).2 = .ok o) ∧ q.boardSends b.release = true ∧ sh.boardSends b.release = false ∧
      q.gh.waiting = [] ∧ tblGet false q.gh.portBusy b.port = false ∧ q.isAdmitted b = true) ∧
    (∀ x ∈ s.gh.waiting, x.port ≠ 7) ∧ (({ s with gh := { s.gh with waiting := [r] } } : State).gh.waiting = [r] ∧ s.tw.gateClosed = false ∧ s.pw.scanTaken = false) := by
  exact ⟨by decide +kernel, ⟨by decide +kernel, by decide +kernel, ⟨_, rfl⟩, by decide +kernel, by decide +kernel, by decide +kernel, by decide +kernel, by decide +kernel⟩,
    by decide +kernel, by decide +kernel⟩

theorem witness_DeparturesAndTables_coaches : let k := { coach with lastIssued := some 2 }; let s := inn { k with fellBack := some 2 } 0; let t := inn k 0
    let f := inn { k with fellBack := some 2, fbList := some (2, []) } 0; let p := { t with gh := { streams := [(3, { valid := true, coach := some 5 })] } }
    (s.coach 5).valid = true ∧ (s.coach 5).lastIssued = some 2 ∧ (s.coach 5).listed ≠ some 2 ∧ (s.coach 5).fellBack = some 2 ∧ (s.coach 5).issued ≠ some 2 ∧
    (t.coach 5).fellBack ≠ some 2 ∧ (t.coach 5).issued ≠ some 2 ∧ (t.coach 5).fbList = none ∧ (t.coach 0).valid = false ∧
    (f.coach 5).fbList = some (2, []) ∧ (f.coach 5).issued ≠ some 2 ∧ (p.stream 3).coach = some 5 := by decide +kernel

theorem witness_DeparturesAndTables_tables : let x : KeySlot := { key := { full := true, group := 0, vid := 0, v6 := false, dst := 0, dport := 0 }, stream := 3, leg := false }
    let s := { core [(0x080100, 0x8000#16)] with gh := { keys := [(131072 * 4, some x)], streams := [(3, { valid := true, template := 0x40, tmpl := [5#16] })] } }
    let t := { core [] with gh := { stash := List.replicate 769 x } }
    (t.rekeying = false ∧ t.leads = true ∧ t.atRound = true ∧ 768 < t.gh.stash.length ∧ t.gh.rekeySelf = none ∧ s.rekeying = true ∧ s.leads = true ∧
      s.refilled ≠ none) ∧
    tblGet none s.gh.keys (131072 * 4) = some x ∧ (s.stream 3).valid = true := by decide +kernel

theorem witness_DeparturesAndTables_scrub : let s := core [(0x100000, 0x0003#16)]
    regionOf 0 = .dram ∧ dramBacked s 0 = true ∧ rowsLog2 s 0 ≠ 0 ∧ s.domainOn 30 = true ∧ rowsLog2 (core []) 0 = 0 ∧
    ((job.board 4095).valid = true ∧ 1 ≤ (job.board 4095).len1 ∧ (job.board 1).valid = false) ∧
    (let c := dev 0 { eng .kernel with dcache := [{ line := 7, data := List.replicate 16 5#16, dirty := false }], icache := [{ line := 7, data := List.replicate 16 5#16, dirty := false }] }
     ((c.engAt 0).dcache.find? fun d => d.line == lineOf 0x7F) = some { line := 7, data := List.replicate 16 5#16, dirty := false } ∧ (∃ d ∈ (c.engAt 0).icache, d.line = 7)) := by
  decide +kernel

/-! ### Commands of the rings -/

/-- The device with these instances, whose rings 0 and 511 hold one command more than has been read. -/
def ringed (l : List (Nat × Word)) (inst : Tbl Inst) : State :=
  let p := portal 511; let q := portal 0
  { core ([(0x020000, 0x2000#16), (0x0C0004, 95#16), (0x0C0005, 4#16), (q 3, 0x8004#16), (q 4, 1#16), (q 11, 0x8004#16), (p 3, 0x8004#16), (p 4, 1#16), (p 11, 0x8004#16)] ++ l) with
    inst := inst, fn := { busMaster := true }, clk := {} }

/-- A command of the manager that names instance 511, with its arguments. -/
def mgr (a : List Word) : Entry := { ring := 0, w2 := 511#16, args := a }

/-- A command of the manager that names no instance. -/
def mgr0 (a : List Word) : Entry := { ring := 0, args := a }

/-- A command of instance 511. -/
def own511 (a : List Word) : Entry := { ring := 511, args := a }

/-- The command is read, and nothing before its own conditions refuses it. -/
def runs (s : State) (e : Entry) (op : Nat) (m : Bool) (used : List Nat) : Bool :=
  s.readsRing e.ring.val && decide ((s.cmdRead e.ring.val).precheck e op m = none) && entryUses e used

/-- The command is read, and refused before its own conditions are looked at: its word 1 is not 0, or it uses a word it has not. -/
def barred (s : State) (e : Entry) (op : Nat) (m : Bool) : Bool :=
  s.readsRing e.ring.val && decide ((s.cmdRead e.ring.val).precheck { e with hi := 1#8 } op m ≠ none)

theorem witness_InstanceManagement_create : let e := mgr ([1#16, 0#16, 16#16] ++ List.replicate 11 0#16 ++ [1#16]); let s := ringed [] []; let u := s.cmdRead 0
    runs s e 0x01 true (wRange 3 27) = true ∧ barred s e 0x01 true = true ∧ State.reset.readsRing 0 = false ∧
    (u.instAt 511).st = .free ∧ u.pasidHeld 511 1 = false ∧ (∀ k < 4, u.poolSum 511 k ((entryShares e).getD k 0) ≤ u.pool k) ∧
    16 ≤ (entryArg e 5).toNat ∧ entryArg e 17 = 1#16 ∧ fld (entryArg e 4) 4 12 = 0 := by decide +kernel

theorem witness_InstanceManagement_share : let e := mgr ([0#16, 0#16, 0#16] ++ List.replicate 11 0xFFFF#16 ++ [5#16] ++ List.replicate 10 0xFFFF#16)
    let s := ringed [] [(511, { st := .active })]; let u := s.cmdRead 0
    runs s e 0x02 true (wRange 6 27) = true ∧ (u.instAt 511).st = .active ∧ entryArg e 17 = 5#16 ∧
    (∀ k < 4, (entryShares e).getD k 0 = allOnes k ∨ (entryShares e).getD k 0 ≤ (u.instAt 511).held k ∨ u.poolSum 511 k ((entryShares e).getD k 0) ≤ u.pool k) := by
  decide +kernel

theorem witness_InstanceManagement_states : let a := ringed [] [(511, { st := .active })]; let q := ringed [] [(511, { st := .quiesced })]; let e := mgr []
    runs a e 0x03 true [] = true ∧ ((a.cmdRead 0).instAt 511).st = .active ∧ runs q e 0x04 true [] = true ∧ runs q e 0x05 true [] = true ∧
    ((q.cmdRead 0).instAt 511).st = .quiesced ∧ ((ringed [] [(511, { st := .quiescing })]).instAt 511).st = .quiescing ∧
    (ringed [] [(511, { st := .quiescing })]).quiet 511 = true ∧ (a.instAt 1).st = .free := by decide +kernel

theorem witness_InstanceManagement_log : let d : DirtyLog := { bitmap := 0, base := 0, pages := 1 }; let a := ringed [] [(511, { st := .active })]
    let l := ringed [] [(511, { st := .active, log := some d })]
    (runs a (mgr [1#16, 0#16]) 0x06 true [3, 4] = true ∧ entryArgs (mgr [1#16, 0#16]) 3 1 ≠ 0 ∧ (a.cmdRead 0).pasidHeld 511 1 = false) ∧
    (let e := mgr [8#16, 0#16, 0#16, 0x1000#16, 0#16, 0#16, 1#16, 0#16]
     runs a e 0x08 true (wRange 3 10) = true ∧ entryArgs e 3 3 % 8 = 0 ∧ entryArgs e 6 3 % 4096 = 0 ∧ ((a.cmdRead 0).instAt 511).log = none) ∧
    (runs l (mgr [8#16, 0#16, 0#16]) 0x09 true [3, 4, 5] = true ∧ ((l.cmdRead 0).instAt 511).log = some d ∧ runs l (mgr []) 0x0A true [] = true) := by decide +kernel

theorem witness_ManagerCommands_frames : let s := { ringed [] [] with frames := [(23, { st := 2, powered := true })] }
    runs s (mgr0 [23#16]) 0x0C true [3] = true ∧ runs s (mgr0 [23#16]) 0x0D true [3] = true ∧ runs s (mgr0 []) 0x0E true [] = true ∧
    (s.cmdRead 0).rekeying = false ∧ (s.frameAt 23).st = 2 ∧ (s.frameAt 23).powered = true ∧ (s.frameAt 0).st = 2 ∧ (s.frameAt 0).powered = false := by decide +kernel

/-- A directory entry for the policy, one octet at unit 1. -/
def pieceEntry : List Word := [0x0700#16, 1#16, 1#16, 0#16, 1#16, 0#16, 0#16, 0#16] ++ List.replicate 24 0#16

/-- The octets of a staged image of one piece. -/
def image : List Byte := wordsOctets ([0x4C56#16, 1#16, 0#16, 0#16, 2#16, 0#16, 1#16, 1#16] ++ List.replicate 56 0#16 ++ pieceEntry)

/-- A device with that image in its other slot, staging as given. -/
def staging (w : Word) : State := { ringed [(0x030000, 0xC009#16 ||| w)] [] with cf := { flash := [(65536, image), (65537, [9#8])] } }

theorem witness_ManagerCommands_pieces : let a := staging 0#16; let b := staging 0x0080#16; let c := staging 0x0100#16; let v := staging 0x1100#16
    (runs a (mgr0 []) 0x10 true [3] = true ∧ (a.cmdRead 0).bit 0x030000 10 = false ∧ (a.cmdRead 0).cf.erasing = none) ∧
    (let e := mgr0 [1#16, 0#16, 0#16, 0#16, 0#16, 0#16, 1#16]
     runs b e 0x10 true (wRange 3 9) = true ∧ (b.cmdRead 0).staged = 1 ∧ (entryArg e 9).toNat = 1 ∧ 0 ∉ b.cf.written ∧ (b.cmdRead 0).cf.erasing = none) ∧
    runs b (mgr0 [2#16]) 0x10 true [3] = true ∧
    (runs c (mgr0 [0#16, 7#16, 0#16]) 0x11 true [3, 4, 5] = true ∧ (c.cmdRead 0).staged = 2 ∧ c.cf.acts = [] ∧
      (c.cmdRead 0).stagedPiece 7 0 = some { kind := 7, index := 0, pver := 1#16, serial := 0, digest := List.replicate 24 0#16, octets := [9#8] } ∧
      (c.cmdRead 0).pieceBound { kind := 7, index := 0, pver := 1#16, serial := 0, digest := [], octets := [9#8] } = false ∧ c.cf.active = []) ∧
    runs c (mgr0 [1#16]) 0x11 true [3] = true ∧ (runs v (mgr0 [2#16]) 0x11 true [3] = true ∧ (v.cmdRead 0).bit 0x030000 12 = true) := by decide +kernel

theorem witness_ManagerCommands_records : let s := { ringed [] [(511, { st := .active })] with jr := { jring := [List.replicate 16 0#16] } }; let l := wordsAt
    (let e := mgr0 [0#16, 0#16, 0#16, 1#16]
     runs s e 0x12 true (wRange 3 9) = true ∧ entryArg e 6 = 1#16) ∧
    (let e := mgr0 [0#16, 0x1000#16, 0#16, 0#16, 4#16]
     runs s e 0x14 true (wRange 3 7) = true ∧ (s.cmdRead 0).ty.lrOn = false ∧ entryArgs e 4 3 % 4096 = 0 ∧ (entryArg e 7).toNat = 4) ∧
    runs s (mgr0 [1#16]) 0x14 true [3] = true ∧
    (let e := mgr0 [0#16, 0#16, 0#16, 40976#16, 0#16]
     runs s e 0x15 true (wRange 3 7) = true ∧ 40976 ≤ l (mgr0 e.args).args 3 2 ∧ (s.cmdRead 0).snapBusy = false) := by decide +kernel

/-- A record of kind CLOSE, with its digest. -/
def closeRec : List Word := [0x2000#16] ++ List.replicate 7 0#16 ++ [0x9D92#16, 0xB726#16, 0xFB01#16, 0x30B3#16] ++ List.replicate 244 0#16

theorem witness_ManagerCommands_seed : let s := ringed [] [(511, { st := .active })]; let e := mgr [2#16]; let u := s.cmdRead 0
    runs s e 0x14 true (wRange 3 6) = true ∧ (u.instAt 511).st = .active ∧ (u.instAt 511).ledger.tot = [] ∧ (u.instAt 511).ledger.inc = [] ∧
    u.gh.streams = [] ∧ u.ik.progs = [] ∧ u.boards = [] ∧ closeRec.length = 256 ∧ recordDigest closeRec = recDigest closeRec ∧
    fld (wordAt closeRec 0) 12 3 = 2 := by decide +kernel

theorem witness_ManagerCommands_states : let p := { ringed [(0x0F0000, 0x4400#16)] [] with tw := { peer := { sync := true, eligible := true } } }
    let r := { ringed [(0x0F0000, 0x0400#16)] [] with tw := { peer := { known := true, role := 1 } } }
    let n := { ringed [(almBase 0 + 10, 0x8800#16)] [] with pw := { intervalAt := 1, sensed := true }, ty := { lrOn := true } }
    (runs p (mgr0 []) 0x18 true [] = true ∧ (p.cmdRead 0).role = 1 ∧ (p.cmdRead 0).twinReady = true ∧ p.tw.handover = none) ∧
    (runs r (mgr0 []) 0x19 true [] = true ∧ (r.cmdRead 0).role = 0 ∧ (r.cmdRead 0).linkUp = true ∧ r.tw.peer.known = true ∧ r.tw.peer.role ≤ 1) ∧
    runs n (mgr0 [0#16]) 0x1C true [3] = true ∧ (runs n (mgr0 [2#16]) 0x1C true [3] = true ∧ (n.cmdRead 0).inService = false) ∧
    (n.readsRing 0 = true ∧ n.precheck (mgr0 [3#16]) 0x1C true = none ∧ entryUses (mgr0 [3#16]) [3] = true ∧ n.nightRefusal = none) := by decide +kernel

/-- Instance 511 active, with 4,096 boards of its share. -/
def guest : Tbl Inst := [(511, { st := .active, shares := { boards := 4096, streams := 1 }, limits := [1, 1, 1] })]

/-- The device with that instance, whose ring is the next to be read. -/
def turn511 : State := { ringed [] guest with fn := { busMaster := true, lastRing := 510 } }

/-- A parameter block that opens a channel of form 2 at destination port 5, and its template: IPv4 over Ethernet. -/
def block : List Word :=
  [0x4000#16, 0#16, 0#16, 0#16, 0#16, 0x0401#16, 1#16] ++ List.replicate 7 0#16 ++ [1#16, 27#16] ++ List.replicate 8 0#16 ++ [5#16] ++ List.replicate 47 0#16

/-- The template. -/
def template_ : List Word :=
  octetsWords (List.replicate 12 0#8 ++ [0x08#8, 0#8, 0x45#8] ++ List.replicate 8 0#8 ++ [17#8] ++ List.replicate 18 0#8 ++ [0x80#8] ++ List.replicate 11 0#8)

theorem witness_InstanceCommands_open : let s := turn511; let e := own511 [0#16, 0#16, 0#16, 72#16]; let u := s.cmdRead 511
    runs s e 0x44 false [3, 4, 5, 6] = true ∧ barred s e 0x44 false = true ∧ entryArg e 6 = 72#16 ∧ entryArgs e 3 3 < 2 ^ 40 ∧
    (let v := u.blocksRead e block
     v.openRefusal 511 (openReq block) block template_ = none ∧ (v.openAdmit 511 (openReq block) block template_ []).st = .ok) := by decide +kernel

theorem witness_InstanceCommands_programs : let s := turn511; let t := { s with ik := { progs := [(511 * 2048 + 2047, { valid := true })] } }
    (let e := own511 ([0#16, 0#16, 0#16, 0#16, 1#16] ++ List.replicate 9 0#16 ++ [16#16])
     runs s e 0x40 false (wRange 3 26) = true ∧ (entryArg e 17).toNat = 16 ∧ ((s.cmdRead 511).prog 511 0).valid = false) ∧
    (let e := own511 [2047#16]
     runs t e 0x41 false [3] = true ∧ ((t.cmdRead 511).prog 511 2047).valid = true ∧ t.ik.coaches = [] ∧ t.ik.bejobs = []) ∧
    (let e := own511 [2047#16, 1024#16, 0#16]
     runs t e 0x50 false [3, 4, 5, 6] = true ∧ t.beMax = 1024 ∧ entryArgs e 4 2 ≤ t.beMax ∧ (t.cmdRead 511).parked = false) := by decide +kernel

theorem witness_InstanceCommands_streams :
    let s := { turn511 with gh := { streams := [(3, { valid := true, owner := 511, srtp := true }), (4, { valid := true, owner := 511, coach := some 5 })] } }
    let u := s.cmdRead 511; let k : List Word := [3#16, 0x0040#16] ++ List.replicate 30 0#16
    (runs s (own511 [3#16, 0#16]) 0x45 false [3, 4] = true ∧ u.streamRefusal 511 3 = none ∧ (u.stream 3).coach = none ∧ u.streamRefusal 511 4 = none ∧
      (u.stream 4).coach = some 5) ∧
    runs s (own511 [3#16, 0#16, 3#16]) 0x46 false [3, 4, 5] = true ∧
    (runs s (own511 [0#16, 0#16, 0#16]) 0x48 false [3, 4, 5] = true ∧ (u.stream 3).srtp = true ∧ (tblGet {} u.gh.srtp ((u.stream 3).ctx false)).suite = none ∧
      fld (wordAt k 1) 8 4 ≤ 5 ∧ fld (wordAt k 1) 4 3 = 4 ∧ wordAt k 1 &&& 0x100C#16 = 0#16) ∧
    (runs s (own511 []) 0x49 false [] = true ∧ (u.instAt 511).notices = []) ∧
    (let e := own511 ([0x2000#16, 3#16, 0#16, 0#16, 0#16, 0#16, 2#16] ++ List.replicate 6 0#16)
     runs s e 0x51 false (wRange 3 15) = true ∧ entryArg e 3 &&& 0x97FF#16 = 0#16 ∧ fld (entryArg e 3) 13 2 = 1 ∧ entryArgs e 4 2 = 3 ∧
       entryArgs e 10 6 ≤ u.now + 2 ^ 48 ∧ u.looseRoom = true) ∧
    (reservedOp 0x07#8 = true ∧ reservedOp 0x40#8 = false) := by decide +kernel

theorem witness_InstanceCommands_boards : let s := { turn511 with frames := [(0, { powered := true, st := 0 })] }; let u := s.cmdRead 511
    let d : BoardDesc := { valid := true, owner := 511, period := 2, expect := 1#16, expectNext := 1#16 }; let t := { s with boards := [(7, d)] }
    (let e := own511 [256#16, 1#16, 2#16]
     runs s e 0x4C false [3, 4, 5] = true ∧ periodMul 2 = some 4 ∧ u.parked = false ∧ ((List.range 4096).find? fun b => !(u.board b).valid) = some 0 ∧
       u.useOf 511 3 + 1 ≤ (u.instAt 511).share 3 ∧ (entryArg e 3).toNat = 256 ∧ u.homeFor 0 (128 * 256) (256 * 1 * (48 / 4)) = some 0) ∧
    (let e := own511 [7#16, 2#16, 9#16, 0#16]; let v := t.cmdRead 511
     runs t e 0x4D false [3, 4, 5, 6] = true ∧ v.boardNo 511 7 = none ∧ (BitVec.ofNat 32 (entryArgs e 5 2) - BitVec.ofNat 32 (curPeriod 4 v.now)).toInt = 9 ∧
       (v.setExpect 7 (entryArg e 4) (BitVec.ofNat 32 (entryArgs e 5 2))).adderOk d.home 0 = true) ∧
    runs t (own511 [7#16]) 0x4E false [3] = true := by decide +kernel

/-! ### The twin pair -/

/-- A device of a role and SYNC with its link up on two lanes, at a time in µs. -/
def pair (role : Nat) (sync : Bool) (us : Nat) : State :=
  { core [(0x0F0000, BitVec.ofNat 16 (role * 0x4000 + (if sync then 0x2000 else 0) + 0x0500))] with time := us * 281474977, tw := { gateClosed := false }, clk := {} }

/-- The same, whose heartbeat was seen at 0. -/
def beaten (role : Nat) (sync : Bool) (us : Nat) : State :=
  let s := pair role sync us; { s with tw := { s.tw with peer := { hbSeen := true } } }

theorem witness_TwinLink : let s := pair 0 false 1000; let r := pair 3 false 0; let n := core []
    (n.linkUp = false ∧ s.linkUp = true ∧ s.seeksTwin = true ∧ (pair 1 false 0).seeksTwin = true ∧ r.seeksTwin = false ∧ s.tw.pairRetryAt = none ∧ s.reg 0x0F0003 ≠ 3#16) ∧
    (s.leads = true ∧ r.leads = false ∧ s.role ≠ 3 ∧ r.role = 3 ∧ r.tw.mseqRx = none ∧ s.tw.timeTx = none ∧
      ({ r with ik := { coaches := [(5, coach)] } }.coach 5).valid = true ∧ { r with tw := { timeTx := some 0 } }.tw.timeTx = some 0) ∧
    (usPassed s.tw.helloAt s.time 1000 = true ∧ usPassed s.tw.beatAt s.time 10 = true ∧ usPassed r.tw.beatAt r.time 10 = false) ∧
    (let b := beaten 2 true 49; b.role = 2 ∧ b.sync = true ∧ b.hbSilent = false) ∧
    (let b := beaten 1 false 50; b.role = 1 ∧ b.hbSilent = true ∧ b.tw.peer.hbSeen = true) ∧ (beaten 2 true 50).linkSilent = true ∧
    (fld (r.reg 0x0F0000) 7 2 = 2 ∧ fld (n.reg 0x0F0000) 7 2 ≠ 2 ∧ n.domainOn 31 = true ∧ State.reset.domainOn 31 = false) ∧
    (let b := pair 2 false 0; b.role = 2 ∧ b.sync = false ∧ b.linkUp = true ∧ b.linkFits = true) := by decide +kernel

theorem witness_TwinLink_pairing : let s := beaten 0 false 0; let x : Hello := { s.hello with isaMajor := 7 }; let p := { s with tw := { s.tw with pairRetryAt := some 0, hello := some s.hello } }
    (s.seeksTwin = true ∧ s.pairRefusal x = some 2 ∧ s.pairRefusal s.hello = none) ∧
    (p.tw.pairRetryAt = some 0 ∧ p.tw.hello = some s.hello ∧ 0 ≤ p.now ∧ p.linkUp = true ∧ p.seeksTwin = true ∧ p.pairRefusal s.hello = none) ∧
    (let q := { core [] with tw := { pairRetryAt := some 1 } }; q.now < 1 ∧ q.linkUp = false ∧ q.seeksTwin = true ∧ s.tw.pairRetryAt = none) := by
  refine ⟨⟨by decide +kernel, by decide +kernel, ?_⟩, ⟨rfl, rfl, Nat.zero_le _, by decide +kernel, by decide +kernel, ?_⟩, by decide +kernel⟩ <;>
    decide +kernel

theorem witness_TwinMirror : let n := core []; let s := pair 2 true 0; let b := beaten 2 true 50; let p := pair 1 false 0
    let c : Commit := { mseq := 0, entry := own511 [3#16, 0#16, 3#16], op := 0x46#8, time := 0 }
    let d : Digest := { coach := 5, period := 0, words := [], due := 0, sent := true }
    (n.linkUp = false ∧ s.linkUp = true ∧ s.inOrder 7 = true ∧ p.inOrder 7 = false ∧ s.role = 2 ∧ s.sync = true) ∧
    (c.entry.ring.val ≠ 0 ∧ (let t := { s with gh := { streams := [(3, { valid := true, owner := 511 })] } }
      t.inOrder c.mseq = true ∧ t.streamRefusal c.entry.ring (entryArgs c.entry 3 2) = none ∧ (entryArg c.entry 5).toNat ≤ 3)) ∧
    (s.compares = true ∧ p.compares = false) ∧
    (let t := { s with tw := { s.tw with ledgerWait := [(511, some (1, []))], digests := [d], handover := some 0 } }
     tblGet none t.tw.ledgerWait 511 = some (1, []) ∧ t.leads = false ∧ (∃ x ∈ t.tw.digests, x.due ≤ t.now) ∧ t.tw.handover = some 0 ∧ 0 ≤ t.now) ∧
    (b.hbSilent = true ∧ b.linkSilent = true) ∧ (let q := pair 1 false 3000; q.role = 1 ∧ boundaryOf 1 (q.tw.lastCut + 1) ≤ q.now) ∧
    (let q := pair 2 true 2600; q.sync = true ∧ boundaryOf 1 (q.tw.lastCut + 1) + usUnits 50 < q.now) ∧
    (let q := { p with tw := { p.tw with shadow := true, handover := some 0 } }; q.role = 1 ∧ q.tw.shadow = true ∧ q.tw.handover = some 0 ∧ q.twinReady = false ∧
      { q with tw := { q.tw with peer := { sync := true, eligible := true } } }.twinReady = true ∧ (pair 2 false 0).mayTakeOver = false) ∧
    (let q := { s with time := 51 * 281474977, ik := { coaches := [(5, coach)] } }
     (q.coach 5).valid = true ∧ 0 % (q.coach 5).mul = 0 ∧ boundaryOf 1 0 + usUnits 1 < q.now ∧ boundaryOf 1 0 + usUnits 50 < q.now) ∧
    ((({ p with inst := [(511, { st := .active, ledger := { lost := true } })] } : State).instAt 511).ledger.lost = true) ∧
    (n.domainOn (24 + 3) = true ∧ tblGet false n.pw.unchecked 3 = false ∧ n.pairActive 0 = true) := by decide +kernel

theorem witness_TwinMirror_frame :
    let s : State := { pair 2 true 0 with gh := { streams := [(3, { valid := true, ringLog2 := 4, slotUnits := 1, slotTs := 1, ringBase := 0x1000 })] } }
    let d := (media.drop 42).take 22; let x := s.stream 3; let n := x.aheadOf (curPeriod x.mul 0) (beNat d 4 4)
    s.inOrder 0 = true ∧ x.ssrcChk = false ∧ x.srtp = false ∧ x.form < 2 ∧ octAt d 1 % 128 = 0 ∧ n = 1 ∧ n < (2 ^ x.ringLog2 : Int) ∧ 0 < boundaryOf x.mul 1 ∧
    s.slotHas (x.slotAt true 1) 1 = false ∧ (rtpParts d).data.length ≤ 8 * x.slotUnits := by decide +kernel

/-! ### Debug, boundary scan and SMBus -/

/-- A device in debug mode, or not, with engine 0 in a state and selected. -/
def debugged (open_ : Nat) (x : Engine) : State :=
  { core [(0x100000, 0x0003#16)] with
    cf := { active := [(64, { pver := 0#16, digest := [], octets := [], slot := 0, fields := List.replicate 11 0 ++ [open_] })] }
    frames := [(0, { powered := true, st := 0 })], eng := [(0, x)], pw := { dbgSel := some 0 } }

theorem witness_DebugPort : let c := debugged 0 {}; let h := debugged 1 { run := .halted }; let r := debugged 1 (eng .kernel)
    let w := { h with pw := { h.pw with dbgWait := some 0 } }; let n := { h with pw := {} }
    (State.reset.domainOn 29 = false ∧ c.domainOn 29 = true ∧ c.pw.dbgWait = none ∧ c.params 11 % 2 = 0) ∧
    (w.domainOn 29 = true ∧ w.pw.dbgWait ≠ none) ∧ (h.domainOn 29 = true ∧ h.params 11 % 2 = 1 ∧ h.pw.dbgWait = none) ∧
    (fld 0x0000#16 8 7 = 0 ∧ engOfId 0x0000#16 = some 0 ∧ h.dbgPowered 0 = true ∧ n.dbgEngine = none ∧ h.dbgEngine = some 0) ∧
    ((h.engAt 0).run = .halted ∧ (r.engAt 0).run = .running ∧ (r.engAt 0).slot = false ∧ r.dbgEngine = some 0) ∧
    (dbgRegWords 0 (fld 0x500F#16 12 4) (fld 0x5003#16 0 12) = 48 ∧ dbgRegWords 0 7 3 = 9 ∧ dbgRegBars 7 3 (List.replicate 9 1#16) = false) ∧
    (fld 0xC003#16 2 12 = 0 ∧ fld 0xB001#16 1 11 = 0 ∧ (0xB001#16 : Word).getLsbD 14 = false ∧ fld 0xB001#16 12 2 ≠ 0) ∧
    (∀ i < 2, regionOf (0x1000 + i) = .dram ∧ backed h (0x1000 + i) = true ∧ isBad h (0x1000 + i) = false) := by decide +kernel

theorem witness_ScanAndSmbus : smbusReg 0x40 = none ∧ smbusReg 0x3F = some 0x02005F ∧ State.reset.pw.wake ≠ .night ∧ smbusReg 2 = some 0x020009 ∧
    (let s := waking .night 0 []; let t := { s with pw := { s.pw with sensor3 := some 5 } }; t.pw.wake = .night ∧ t.pw.sensor3 = some 5) := by decide +kernel

theorem witness_MemoryKeepsItsForm : Memory.wf State.reset.mem = true ∧ step State.reset = .next State.reset := ⟨by decide +kernel, rfl⟩

/-! ### More of the clauses' hypotheses -/

theorem witness_Divides_corners : (∀ a ∈ [(-32768 : Int), 32767, -1], -32768 ≤ a ∧ a ≤ 32767) ∧ ((-32768 : Int) = (0x8000#16 : Word).toInt) ∧
    (32767 : Int) ≠ (0xFFFF#16 : Word).toInt := by decide +kernel

theorem witness_Loads_miss : let s := { dev 0 (kern { a := [(1, 0xF#48)] } dramPage) with csr := tblSet 0#16 resetRegs 0x100000 10#16 }
    clear s 0 1 = true ∧ (s.engAt 0).sb = [] ∧ places s ((s.regsOf 0).ra 1) 1 .load = some [15] ∧ isBad s 15 = false ∧ (s.engAt 0).dcache = [] ∧
    victimOf s 0 0 = none := by decide +kernel

/-- A page of the CSR space at virtual address 0x10000: offsets 0x010000 to 0x010FFF. -/
def csrPage : Tbl TlbEntry := [(0, { valid := true, size := 12#6, dev := true, r := true, wr := true, va := 0x10000#48, pa := 0x6000010000#40 })]

theorem witness_Loads_csr : let s := { dev 0 (kern { a := [(1, 0x10027#48), (2, 0x10FFF#48)] } csrPage) with csr := [(0x010027, 7#16)] }
    clear s 0 1 = true ∧ (s.engAt 0).sb = [] ∧ places s ((s.regsOf 0).ra 1) 1 .load = some [0x6000010027] ∧ regionOf 0x6000010027 = .csr ∧
    (regGroup 0x010027).2 = 1 ∧ trafficCounter 0x010027 = none ∧ places s ((s.regsOf 0).ra 2) 1 .load = some [0x6000010FFF] := by decide +kernel

theorem witness_BoardPostsAndLoads_open : let s := job {}; let x := s.engAt 0; let g := x.trk.gen - 1#32; let d := s.board (boardEntry x.trk 0).2.2; let k := s.block 0 1 g
    clear s 0 1 = true ∧ excOpen s 0 = true ∧ (boardEntry x.trk 0).1 = true ∧ (x.regs.rw 3).toNat ≤ d.len1 ∧ genGe g d.firstGen = true ∧
    ¬ (d.valid = true ∧ k.tag = g ∧ k.poison = false ∧ k.count = d.expected g) := by decide +kernel

theorem witness_HostWindow_failures : let t := dev 0 { eng .kernel with run := .hostWait { waiting with asked := true, pages := [5] } }
    t.atsCached 1 [5] = false ∧ excOpen t 0 = true ∧ (t.engAt 0).metered = false ∧ t.awaitsLoad 0 = false ∧ (t.engAt 0).haltAsked = false := by decide +kernel

theorem witness_TimeCommits_fired : State.reset.clk.fired = [] ∧ mayWrite .debug 0x010015 = true ∧ frameOn (dev 0 (eng .kernel)) 0 = true ∧
    (dev 0 (eng .kernel)).clk.fired = [] := by decide +kernel

theorem witness_PpsPins_out : let s := dvc [(0x010027, 0x8001#16), (0x010018, 0x8000#16)]; let u := { s with time := 5 }
    (s.bit 0x010027 15 = true ∧ s.bit 0x010018 15 = true ∧ s.clk.ppsOut = false ∧ s.ppsNext < s.time + s.incUnits) ∧ u.time + u.incUnits ≤ u.ppsNext ∧
    (let f := { dvc [] with time := 2 ^ 48, clk := { ppsOut := true, ppsWidth := 999 } }
     f.clk.ppsOut = true ∧ usPassed f.clk.ppsAt (f.time + f.incUnits - 1) (1000 * f.clk.ppsWidth) = true ∧
       usPassed f.clk.ppsAt (f.time / 2 + f.incUnits - 1) (1000 * f.clk.ppsWidth) = false) ∧ (dvc []).clk.phi < (dvc []).incUnits := by decide +kernel

theorem witness_SupplyAndWake_supply : let a := waking .awake 0 []; let n := waking .night 0 [(0x010410, 0x8000#16)]; let w := waking (.stage 1) 0 []
    (a.pw.wake = .awake ∧ (waking .off 0 []).pw.wake = .off) ∧ (n.pw.wake = .night ∧ n.slotsOn = [0]) ∧ (w.pw.wake ≠ .awake ∧ w.pw.wake ≠ .off ∧ w.pw.wake ≠ .night) ∧
    (n.pw.vcoreEn = true ∧ State.reset.pw.vcoreEn = false) ∧ (waking (.stage 2) 0 []).pw.wake = .stage 2 ∧
    ((waking (.stage 3) 0 []).pw.wakeKicks = [] ∧ (waking (.stage 3) 0 []).pw.wake = .stage 3) := by decide +kernel

/-- A core supply above the image's threshold, whatever that is. -/
theorem witness_SupplyAndWake_core : (waking (.stage 0) 0 []).pw.wake = .stage 0 ∧
    ∀ s : State, ∃ x y : WakeReady, x.stage = 0 ∧ s.imageField s.cf.nightSlot 1 17 < x.core ∧ y.stage = 0 ∧ s.wakeReady y = false :=
  ⟨by decide +kernel, fun s => ⟨{ stage := 0, core := s.imageField s.cf.nightSlot 1 17 + 1 }, { stage := 0, core := s.imageField s.cf.nightSlot 1 17 },
    rfl, Nat.lt_succ_self _, rfl, by simp [State.wakeReady]⟩⟩

/-- A device in start-up stage 7. -/
def stage7 (x : FrameSt) : State := { starting 7#16 with frames := [(23, x)] }

theorem witness_StartUp_stages : let u := starting 2#16; let w := { starting 2#16 with cf := { startCause := 2 } }
    (u.stage = 2 ∧ u.bit 0x030000 13 = false ∧ u.cf.startCause ≠ 2 ∧ u.imageOk 0 = false ∧ u.imageOk 1 = false) ∧ (w.stage = 2 ∧ w.cf.startCause = 2) ∧
    (∀ n ∈ [3, 4, 5, 6], (starting (BitVec.ofNat 16 n)).stage = n) ∧
    ((stage7 {}).stage = 7 ∧ (stage7 {}).cf.startCause ≠ 2 ∧ ¬ ∃ f < 24, ((stage7 {}).frameAt f).poweringUp = true ∨ frameOn (stage7 {}) f = true ∨ ((stage7 {}).frameAt f).st = 3) ∧
    (((stage7 { poweringUp := true }).frameAt 23).poweringUp = true ∧ (∃ f < 24, ((stage7 { poweringUp := true }).frameAt f).poweringUp = true)) ∧
    (frameOn (stage7 { powered := true }) 23 = true ∧ ¬ ∃ f < 24, ((stage7 { powered := true }).frameAt f).poweringUp = true) ∧
    (let e := { waking .awake 0 [] with cf := { erasing := some 0, eraseSame := false }, inst := [(0, { busy := some { op := 0x10, tag := 0#16, result := 0, wait := .erase } })] }
     e.cf.erasing ≠ none ∧ e.cf.eraseSame = false ∧ (e.instAt 0).busy = some { op := 0x10, tag := 0#16, result := 0, wait := .erase }) := by decide +kernel

theorem witness_RegisterAccess_journal : let s := core []; let off := 0x010402
    ((regInfo off).map fun i => (i.j, i.rw)) = some (true, 0xFFFF#16) ∧ (regGroup off).2 = 1 ∧ off / 8 ≠ 0x7000 ∧ mayWrite .debug off = true ∧
    mayWrite (.act 0 .boot) off = true ∧ s.regOn off = true ∧ s.baseShut .host off = false ∧ s.clk.fired = [] ∧ scratchReg off = false ∧
    ((regInfo 0x0C0004).map RegInfo.ri = some 0x007F#16 ∧ s.legal 0x0C0004 95#16 = true ∧ s.legal 0x0C0004 96#16 = false) := by decide +kernel

theorem witness_RegisterAccess_latch : let k := shadowKey .host 0x010021; let s := { core [] with fn := { latched := tblSet none [] k (some 5#16) } }
    (1 < (regGroup 0x010021).2 ∧ 0x010021 ≠ (regGroup 0x010021).1 ∧ latchedGroup 0x010020 = true ∧ trafficCounter 0x010021 = none ∧
      tblGet none s.fn.latched k = some 5#16 ∧ s.regOn 0x010021 = true) ∧
    (let o := tmrBase 0 0 + 11; (regGroup o).1 = tmrBase 0 0 + 10 ∧ latchedGroup (tmrBase 0 0 + 10) = true ∧ s.regOn o = false) := by decide +kernel

theorem witness_TallyActs_rooms : let s := core []; let r := { core [] with ty := { lrOn := true, lrLog2 := 4 }, fn := { busMaster := true } }
    s.ty.lrOrphans = [] ∧ s.nextRecord = none ∧ s.lrRoom = false ∧ r.nextRecord = none ∧ r.lrRoom = true ∧ isHeld (rec_ 0) = false := by decide +kernel

theorem witness_HostFunction_requests : let s := rings []; let d := { s with fn := { s.fn with d3hot := true, busMaster := false } }
    (s.fn.d3hot = false ∧ s.hostReady = true ∧ s.fn.busMaster = true ∧ d.fn.d3hot = true ∧ d.fn.busMaster = false) ∧
    (let h := { d with inst := [(511, { st := .active, cplFirst := true, heldCpl := some { status := .ok, tag := 0#16, op := 0, detail := 0, result := 0 } })], fn := { busMaster := true, d3hot := true } }
     h.fn.d3hot = true ∧ h.fn.busMaster = true ∧ h.cplRoom 511 = true ∧ (h.instAt 511).cplFirst = true ∧ (h.instAt 511).behind = []) := by decide +kernel

theorem witness_GovernorAndFrames_powerUp : let s := { core [] with frames := [(23, { poweringUp := true, st := 2 })] }
    (s.frameAt 23).poweringUp = true ∧ (∀ p, s.calibrated 23 p = true) ∧
    (let c := { s with cf := { active := [(384, { pver := 0#16, digest := [], octets := [], slot := 0, fields := List.replicate 47 0 ++ [1000] })] } }
     c.calibrated 23 1050 = true ∧ c.calibrated 23 1051 = false ∧ c.calibrated 23 950 = true) := by
  refine ⟨by decide +kernel, fun p => ?_, by decide +kernel⟩
  rfl

theorem witness_DeparturesAndTables_gate : let s := ports; let d := depOf (depWords 0x8000#16) 1 fun i => (s.stream i).egressPort
    let q := { s with gh := { s.gh with board := [{ d with at_ := 1 }] }, tw := { gateClosed := true } }
    q.dueDep = some { d with at_ := 1 } ∧ q.boardSends d.release = true ∧ q.gh.waiting = [] ∧ q.tw.gateClosed = true ∧ q.isAdmitted d = true := by decide +kernel

theorem witness_InstanceManagement_error : let s := ringed [] [(511, { st := .active })]
    (s.instAt 511).st = .active ∧ (s.instAt 1).st = .free ∧ (1 : Fin 4).val = 1 ∧ (2 : Fin 4).val = 2 := by decide +kernel

theorem witness_TwinLink_untrained : let s := { pair 0 false 1000 with csr := (core [(0x0F0000, 0x0400#16)]).csr }; let u := core []
    (u.linkUp = false ∧ u.tw.pairRetryAt = none) ∧ (s.linkUp = true ∧ s.tw.pairRetryAt = none ∧ s.untrained = false) ∧
    (let q := { core [] with tw := { pairRetryAt := some 0 } }; q.tw.pairRetryAt = some 0 ∧ 0 ≤ q.now ∧ q.linkUp = false) := by decide +kernel

theorem witness_DebugPort_waits : let h := debugged 1 { run := .halted }; let w := { h with time := 20 * 281474977, pw := { h.pw with dbgWait := some 0 } }
    w.pw.dbgWait ≠ none ∧ w.bit 0x010018 10 = false ∧ usPassed w.pw.dbgWaitAt w.time 20 = true ∧ h.dbgTakes = true ∧ w.dbgTakes = false := by decide +kernel

theorem witness_ScanAndSmbus_addresses : let s := dvc []; let h := dvc [(0x010400, 1#16)]
    s.smbAlert = false ∧ h.smbAlert = true ∧ smbusReg 0xFF = none ∧ (0x0C#7 : BitVec 7) ≠ smbAddress ∧ (0x4E#7 : BitVec 7) ≠ smbAddress := by
  refine ⟨by decide +kernel, by decide +kernel, by decide +kernel, ?_, ?_⟩ <;> unfold smbAddress <;> split <;> decide

/-! ### The ciphers, by the examples of their standards -/

/-- Octets from the value that spells them. -/
def hex (v n : Nat) : List Byte := beOctets v n

/-- RFC 3711 B.3: the session encryption key and salt of a master key. -/
theorem test_session_keys : let k := hex 0xE1F97A0D3E018BE0D64FA32C06DE4139 16; let s := hex 0x0EC675AD498AFEEBB6960B3AABE6 14
    sessionKey k s 0#8 16 = hex 0xC61E7A93744F39EE10734AFE3FF7A087 16 ∧ sessionKey k s 2#8 14 = hex 0x30CBBC08863D8C85D49DB34A9AE1 14 := by decide +kernel

/-- FIPS 180: SHA-384 of the octets of abc. -/
theorem test_sha384 : sha384 [0x61#8, 0x62#8, 0x63#8] =
    hex 0xcb00753f45a35e8bb5a03d699ac65007272c32ab0eded1631a8b605a43ff5bed8086072ba1e7cc2358baeca134c825a7 48 := by decide +kernel

/-- RFC 7714 16.1.1: the first octets of a packet's ciphertext. -/
theorem test_gcm : let k := aesKeys (hex 0x000102030405060708090a0b0c0d0e0f 16); let p := hex 0x8040f17b8041f8d35501a0b2 12
    gcmCrypt k (packetIv 4 (hex 0x517569642070726f2071756f 12) false 0xf17b p) (hex 0x47616c6c69612065 8) = hex 0xf24de3a3fb34de6c 8 := by decide +kernel

end Sys2Proof.Tests
end

section
/-! PROOFS. The number model: R51's count of doublings (NORM, LNORM) and R30's rounding modes. -/
namespace Sys2Proof

/-! ### The signed range -/

theorem two_pow_pos (n : Nat) : (0 : Int) < 2 ^ n := Int.pow_pos (by decide)

/-- The signed range of n bits is what saturation leaves as it is (R11). -/
theorem satInt_eq_self_iff {n : Nat} {x : Int} : satInt n x = x ↔ -(2 ^ (n - 1)) ≤ x ∧ x < 2 ^ (n - 1) := by
  have hpos := two_pow_pos (n - 1)
  unfold satInt
  split
  · omega
  · split <;> omega

/-- What saturation gives is in range. -/
theorem satInt_satInt (n : Nat) (x : Int) : satInt n (satInt n x) = satInt n x := by
  have hpos := two_pow_pos (n - 1)
  rw [satInt_eq_self_iff, satInt]
  split
  · omega
  · split <;> omega

/-- A value out of range is limited to the side it lies on. -/
theorem satInt_of_out {n : Nat} {x : Int} (h : x < -(2 ^ (n - 1)) ∨ 2 ^ (n - 1) - 1 < x) :
    satInt n x = if x < -(2 ^ (n - 1)) then -(2 ^ (n - 1)) else 2 ^ (n - 1) - 1 := by
  rw [satInt]
  split
  · rfl
  case isFalse hlo => exact if_pos (h.resolve_left hlo)

namespace Machine

/-! ### How many places a value may be doubled (R51) -/

theorem normFrom_le (n : Nat) (a : Int) (k : Nat) : normFrom n a k ≤ k := by
  induction k with
  | zero => exact Nat.le_refl 0
  | succ k ih =>
    rw [normFrom]
    split
    · exact Nat.le_refl _
    · exact Nat.le_succ_of_le ih

/-- The search ends at a count that fits, where the value itself does. -/
theorem satInt_mul_two_pow_normFrom {n : Nat} {a : Int} (h0 : satInt n a = a) (k : Nat) :
    satInt n (a * 2 ^ normFrom n a k) = a * 2 ^ normFrom n a k := by
  induction k with
  | zero =>
    rw [normFrom, Int.pow_zero, Int.mul_one]
    exact h0
  | succ k ih =>
    rw [normFrom]
    split
    case isTrue h => exact h.symm
    case isFalse => exact ih

/-- The search passes over no count that fits. -/
theorem le_normFrom {n : Nat} {a : Int} {j k : Nat} (hjk : j ≤ k) (hj : satInt n (a * 2 ^ j) = a * 2 ^ j) :
    j ≤ normFrom n a k := by
  induction k with
  | zero => exact hjk
  | succ k ih =>
    rw [normFrom]
    split
    case isTrue => exact hjk
    case isFalse h =>
      have hne : j ≠ k + 1 := by
        rintro rfl
        exact h hj.symm
      exact ih (by omega)

theorem norm_zero (n : Nat) : norm n 0 = 0 := if_pos rfl

theorem norm_of_ne_zero (n : Nat) {a : Int} (ha : a ≠ 0) : norm n a = normFrom n a (n - 1) := if_neg ha

theorem norm_le (n : Nat) (a : Int) : norm n a ≤ n - 1 := by
  rw [norm]
  split
  · exact Nat.zero_le _
  · exact normFrom_le n a (n - 1)

/-- A result that always fits clears V and takes Z and N from itself (R26). -/
theorem plain_flags (y : Word) (f : Flags) :
    (plain y f).2 = { f with v := false, z := decide (y = 0#16), n := y.getLsbD 15 } := rfl

/-- Settles O5: the search from the top finds the largest count that fits, and NORM and LNORM write it as a result that always fits. -/
theorem normCounts : Obligations.NormCounts := by
  unfold Obligations.NormCounts
  refine ⟨fun n a _ ha hlo hhi => ?_, norm_zero 16, norm_zero 32, fun s e d hc => ⟨fun a => ?_, fun a => ?_⟩⟩
  · have hfits : satInt n (a * 2 ^ norm n a) = a * 2 ^ norm n a := by
      rw [norm_of_ne_zero n ha]
      exact satInt_mul_two_pow_normFrom (satInt_eq_self_iff.2 ⟨hlo, hhi⟩) (n - 1)
    obtain ⟨hl, hh⟩ := satInt_eq_self_iff.1 hfits
    refine ⟨norm_le n a, hl, hh, fun j hj hjl hjh => ?_⟩
    rw [norm_of_ne_zero n ha]
    exact le_normFrom hj (satInt_eq_self_iff.2 ⟨hjl, hjh⟩)
  · have h : wordNext (.norm e d a) s e 2 d (plain (BitVec.ofNat 16 (norm 16 ((s.regsOf e).rw a).toInt)) (s.regsOf e).fl) :=
      wordOp_next rfl rfl (by decide) (by decide) hc rfl
    rwa [wordNext, plain_flags] at h
  · have h : wordNext (.lnorm e d a) s e 2 d (plain (BitVec.ofNat 16 (norm 32 ((s.regsOf e).rl a).toInt)) (s.regsOf e).fl) :=
      wordOp_next rfl rfl (by decide) (by decide) hc rfl
    rwa [wordNext, plain_flags] at h

/-! ### Fitting an exact result to its destination (R24, R26) -/

theorem fit_z (n : Nat) (sat : Bool) (y : Int) (f : Flags) : (fit n sat y f).2.z = decide ((fit n sat y f).1 = 0) := rfl

theorem fit_n (n : Nat) (sat : Bool) (y : Int) (f : Flags) :
    (fit n sat y f).2.n = decide ((fit n sat y f).1.toInt < 0) := BitVec.msb_eq_toInt

/-- A result in range is written as it is; V is clear and the sticky flags stay. -/
theorem fit_of_eq {n : Nat} {y : Int} (h : satInt n y = y) (sat : Bool) (f : Flags) :
    (fit n sat y f).1 = BitVec.ofInt n y ∧ (fit n sat y f).2.v = false ∧ (fit n sat y f).2.so = f.so ∧
      (fit n sat y f).2.sat = f.sat := by
  simp only [fit, Flags.limited, Flags.vzn, h, ite_self, bne_self_eq_false, Bool.false_and, Bool.or_false, and_self]

/-- A result out of range sets V. -/
theorem fit_v_of_ne {n : Nat} {y : Int} (h : satInt n y ≠ y) (sat : Bool) (f : Flags) : (fit n sat y f).2.v = true :=
  bne_iff_ne.2 (Ne.symm h)

/-- Saturation replaces a result out of range by the limit and sets SO and SAT. -/
theorem fit_saturating_of_ne {n : Nat} {y : Int} (h : satInt n y ≠ y) (f : Flags) :
    (fit n true y f).1 = BitVec.ofInt n (satInt n y) ∧ (fit n true y f).2.so = true ∧ (fit n true y f).2.sat = true := by
  simp only [fit, Flags.limited, Flags.vzn, bne_iff_ne.2 (Ne.symm h), ↓reduceIte, Bool.and_true, Bool.or_true, and_self]

/-- Wrapping keeps the result modulo 2^n and the sticky flags. -/
theorem fit_wrapping (n : Nat) (y : Int) (f : Flags) :
    (fit n false y f).1 = BitVec.ofInt n y ∧ (fit n false y f).2.so = f.so ∧ (fit n false y f).2.sat = f.sat := by
  simp only [fit, Flags.limited, Flags.vzn, Bool.false_eq_true, ↓reduceIte, Bool.and_false, Bool.or_false, and_self]

/-- What saturation gives is in range, so the destination holds it. -/
theorem toInt_ofInt_satInt {n : Nat} (hn : 0 < n) (y : Int) : (BitVec.ofInt n (satInt n y)).toInt = satInt n y := by
  obtain ⟨hlo, hhi⟩ := satInt_eq_self_iff.1 (satInt_satInt n y)
  exact BitVec.toInt_ofInt_eq_self hn hlo hhi

/-! ### The integer each rounding mode takes (R30) -/

/-- floor(x / d + 1/2). -/
def halfUp (x d : Int) : Int := Int.fdiv (2 * x + d) (2 * d)

/-- floor(x / d + 1/2), and at a half the even one of the two nearest. -/
def halfEven (x d : Int) : Int :=
  if 2 * halfUp x d * d = 2 * x + d ∧ halfUp x d % 2 = 1 then halfUp x d - 1 else halfUp x d

/-- The nearest integer to x / d, and at a half the one farther from 0. -/
def halfAway (x d : Int) : Int := if x ≥ 0 then halfUp x d else -Int.fdiv (d - 2 * x) (2 * d)

/-- floor(x × 2^(16 − s)) + e: the exact value and the residue, in units of 2^-16 of the result. -/
def residueSum (x : Int) (s : Nat) (e : Word) : Int := Int.fdiv (x * 65536) (2 ^ s) + e.toInt

/-- The integer a rounding mode takes for x / 2^s. -/
def rounded (mode : BitVec 3) (x : Int) (s : Nat) (e : Word) : Int :=
  match mode.toNat with
  | 0 => Int.fdiv x (2 ^ s)
  | 1 => Int.tdiv x (2 ^ s)
  | 2 => halfUp x (2 ^ s)
  | 3 => halfEven x (2 ^ s)
  | 4 => halfAway x (2 ^ s)
  | _ => Int.fdiv (residueSum x s e + 32768) 65536

section
variable (n : Nat) (x : Int) (s : Nat) (mode : BitVec 3) (sat : Bool) (e : Word) (f : Flags)

/-- A narrowing fits the integer its mode takes. -/
theorem narrow_fst : (narrow n x s mode sat e f).1 = (fit n sat (rounded mode x s e) f).1 := rfl

theorem narrow_flags : (narrow n x s mode sat e f).2.1 = (fit n sat (rounded mode x s e) f).2 := rfl

/-- The residue after a narrowing in RESIDUE mode. -/
theorem narrow_residue (hm : mode = 5#3) : (narrow n x s mode sat e f).2.2 =
    if (fit n sat (rounded mode x s e) f).2.v = true ∧ sat = true then 0#16
    else BitVec.ofInt 16 (residueSum x s e - 65536 * rounded mode x s e) := by
  subst hm
  simp only [← Bool.and_eq_true]
  rfl

/-- In any other mode the residue stays (R33). -/
theorem narrow_residue_of_ne (hm : mode ≠ 5#3) : (narrow n x s mode sat e f).2.2 = e := if_neg hm

end

/-- The quotient rounded toward −∞ is the one with a remainder from 0 to below the divisor. -/
theorem fdiv_bounds (a : Int) {b : Int} (hb : 0 < b) : Int.fdiv a b * b ≤ a ∧ a < (Int.fdiv a b + 1) * b :=
  ⟨Int.mul_comm b _ ▸ Int.mul_fdiv_self_le hb, Int.lt_fdiv_add_one_mul_self a hb⟩

theorem halfUp_bounds (x : Int) {d : Int} (hd : 0 < d) :
    (2 * halfUp x d - 1) * d ≤ 2 * x ∧ 2 * x < (2 * halfUp x d + 1) * d := by
  obtain ⟨hlo, hhi⟩ := fdiv_bounds (2 * x + d) (b := 2 * d) (by omega)
  rw [Int.mul_left_comm] at hlo
  rw [Int.add_mul, Int.one_mul, Int.mul_left_comm] at hhi
  rw [halfUp, Int.sub_mul, Int.add_mul, Int.one_mul, Int.mul_assoc]
  omega

/-- ZERO: the quotient has the sign of the source, and its magnitude is that of the source rounded down. -/
theorem tdiv_toward_zero (x : Int) {d : Nat} (hd : 0 < d) :
    0 ≤ Int.tdiv x d * x ∧ (Int.tdiv x d).natAbs * d ≤ x.natAbs ∧ x.natAbs < ((Int.tdiv x d).natAbs + 1) * d := by
  have habs : (Int.tdiv x d).natAbs = x.natAbs / d := Int.natAbs_tdiv x d
  refine ⟨?_, ?_, ?_⟩
  · obtain hx | hx := Int.le_total 0 x
    · exact Int.mul_nonneg (Int.tdiv_nonneg hx (Int.natCast_nonneg d)) hx
    · have hneg : 0 ≤ -Int.tdiv x d :=
        Int.neg_tdiv x d ▸ Int.tdiv_nonneg (Int.neg_nonneg_of_nonpos hx) (Int.natCast_nonneg d)
      exact Int.mul_nonneg_of_nonpos_of_nonpos (Int.nonpos_of_neg_nonneg hneg) hx
  · rw [habs]
    exact Nat.div_mul_le_self _ _
  · rw [habs]
    exact Nat.lt_mul_of_div_lt (Nat.lt_succ_self _) hd

/-- HALF_EVEN: within half a unit, and even at a half. -/
theorem halfEven_near (x : Int) {d : Nat} (hd : 0 < d) :
    (2 * x - 2 * halfEven x d * d).natAbs ≤ d ∧ ((2 * x - 2 * halfEven x d * d).natAbs = d → halfEven x d % 2 = 0) := by
  obtain ⟨hlo, hhi⟩ := halfUp_bounds x (d := d) (by omega)
  rw [halfEven]
  generalize halfUp x d = h at *
  split
  case isTrue hodd =>
    obtain ⟨htie, hodd⟩ := hodd
    rw [Int.mul_assoc] at htie
    rw [Int.mul_assoc, Int.sub_mul, Int.one_mul]
    omega
  case isFalse hnot =>
    rw [Int.sub_mul, Int.one_mul, Int.mul_assoc] at hlo
    rw [Int.add_mul, Int.one_mul, Int.mul_assoc] at hhi
    rw [Int.mul_assoc] at hnot ⊢
    omega

/-- HALF_AWAY: within half a unit, and not nearer to 0 than the source at a half. -/
theorem halfAway_near (x : Int) {d : Nat} (hd : 0 < d) :
    (2 * x - 2 * halfAway x d * d).natAbs ≤ d ∧
      ((2 * x - 2 * halfAway x d * d).natAbs = d → x.natAbs ≤ (halfAway x d * d).natAbs) := by
  rw [halfAway]
  split
  case isTrue hx =>
    obtain ⟨hlo, hhi⟩ := halfUp_bounds x (d := d) (by omega)
    rw [Int.sub_mul, Int.one_mul, Int.mul_assoc] at hlo
    rw [Int.add_mul, Int.one_mul, Int.mul_assoc] at hhi
    rw [Int.mul_assoc]
    omega
  case isFalse hx =>
    obtain ⟨hlo, hhi⟩ := fdiv_bounds (d - 2 * x) (b := 2 * d) (by omega)
    rw [Int.mul_left_comm] at hlo
    rw [Int.add_mul, Int.one_mul, Int.mul_left_comm] at hhi
    rw [Int.mul_assoc, Int.neg_mul]
    omega

/-- RESIDUE: what the rounding leaves over fits a word. -/
theorem residue_bounds (t : Int) :
    -32768 ≤ t - 65536 * Int.fdiv (t + 32768) 65536 ∧ t - 65536 * Int.fdiv (t + 32768) 65536 ≤ 32767 := by
  obtain ⟨hlo, hhi⟩ := fdiv_bounds (t + 32768) (b := 65536) (by decide)
  omega

/-- Settles O6: each mode takes the integer its bounds describe, and the fit writes it, the limit or the wrapped value. -/
theorem roundingModes : Obligations.RoundingModes := by
  unfold Obligations.RoundingModes
  refine ⟨fun n s x mode sat e f _ => ?_, fun n sat y f hn => ?_⟩
  · have hd : 0 < 2 ^ s := Nat.two_pow_pos s
    have hdInt := two_pow_pos s
    have hcast : ((2 ^ s : Nat) : Int) = 2 ^ s := Int.natCast_pow 2 s
    refine ⟨rounded mode x s e, narrow_fst .., narrow_flags .., fun h => ?_, fun h => ?_, fun h => ?_, fun h => ?_,
      fun h => ?_, ?_⟩
    · simp only [rounded, h]
      exact fdiv_bounds x hdInt
    · simp only [rounded, h, ← hcast]
      exact tdiv_toward_zero x hd
    · simp only [rounded, h]
      exact halfUp_bounds x hdInt
    · simp only [rounded, h, ← hcast]
      exact halfEven_near x hd
    · simp only [rounded, h, ← hcast]
      exact halfAway_near x hd
    · split
      case isTrue h =>
        have hy : rounded mode x s e = Int.fdiv (residueSum x s e + 32768) 65536 := by simp only [rounded, h]
        obtain ⟨hlo, hhi⟩ := fdiv_bounds (x * 65536) hdInt
        obtain ⟨hrlo, hrhi⟩ := residue_bounds (residueSum x s e)
        rw [← hy] at hrlo hrhi
        exact ⟨Int.fdiv (x * 65536) (2 ^ s), hlo, hhi, hrlo, hrhi, narrow_residue n x s mode sat e f (BitVec.eq_of_toNat_eq h)⟩
      case isFalse h => exact narrow_residue_of_ne n x s mode sat e f (fun hm => h (congrArg BitVec.toNat hm))
  · have hpos := two_pow_pos (n - 1)
    refine ⟨fit_z .., fit_n .., rfl, fun ⟨hlo, hhi⟩ => ?_, fun hout => ?_⟩
    · have hy : satInt n y = y := satInt_eq_self_iff.2 ⟨hlo, by omega⟩
      obtain ⟨hr, hv, hso, hsat⟩ := fit_of_eq hy sat f
      exact ⟨by rw [hr, ← hy, toInt_ofInt_satInt hn, hy], hv, hso, hsat⟩
    · have hy : satInt n y ≠ y := fun h => by
        obtain ⟨hlo, hhi⟩ := satInt_eq_self_iff.1 h
        omega
      refine ⟨fit_v_of_ne hy sat f, ?_, ?_⟩
      · rintro rfl
        obtain ⟨hr, hso, hsat⟩ := fit_saturating_of_ne hy f
        exact ⟨by rw [hr, toInt_ofInt_satInt hn, satInt_of_out hout], hso, hsat⟩
      · rintro rfl
        exact fit_wrapping n y f

end Machine
end Sys2Proof
end
